-- ==== Sys2Proof/Word.lean ====
section
/-! DEFINITION. The words the LF2640's ports carry: characters of eight bits, values of two, three and four characters
(spec/11_request_reference_and_formats.md, R178), and the voltages of its position inputs (R183). -/

namespace Sys2Proof

/-- One character's data value, 0–255 (R166). -/
abbrev Byte := BitVec 8

/-- A value of two characters, high character first (R178). -/
abbrev Half := BitVec 16

/-- A set of notice kinds as an item carries it: 24 bits, bit k for kind k (R178). -/
abbrev KindBits := BitVec 24

/-- A value of four characters, high character first (R178): the field clock and every parameter value in a reply. -/
abbrev Quad := BitVec 32

/-- The voltage at a linear position input, in thousandths of one conversion step: 3.0 V is 4095000 (R183; log 20). -/
abbrev Voltage := Nat

end Sys2Proof
end

