-- ==== Sys2Proof/Syntax.lean ====
section
/-! DEFINITION. The commands of the hub: one constructor for each row of spec/opcode_table.json, with its operands.
Item commands carry the role of the port they arrive on and their raw argument characters (R178, R180), so that a code
outside its range can be sent and is refused by its rule. Events carry what the part observes with them (log 1). -/

namespace Sys2Proof

/-- The six shared axes, numbered 0 to 5 in this order (R1). -/
inductive Axis where
  | flap | tailgate | cradle | ring | tilt | cutter
  deriving DecidableEq, Repr

/-- The three roles; a role stands for its port as well: CH for A, WR for B, CT for C (00_scope 1.3). -/
inductive Role where
  | ch | wr | ct
  deriving DecidableEq, Repr

/-- The two film dispensers (R124). -/
inductive Dispenser where
  | a | b
  deriving DecidableEq, Repr

/-- The levels of the seven digital inputs whose level the part holds; true is active (R183). -/
structure Levels where
  prechamberFull : Bool
  cradleLoad : Bool
  tableLoad : Bool
  netFeed : Bool
  breakA : Bool
  breakB : Bool
  stop : Bool
  deriving DecidableEq, Repr

/-- The voltages at the five linear position inputs at one sample (R2, R3, R183). -/
structure Voltages where
  flap : Voltage
  tailgate : Voltage
  cradle : Voltage
  tilt : Voltage
  cutter : Voltage
  deriving DecidableEq, Repr

/-- The seven boundary values of a ZONE_SET BOUNDS item (R37). -/
structure BoundArgs where
  b1 : Half
  b2 : Half
  b3 : Half
  b4 : Half
  b5 : Half
  b6 : Half
  b7 : Half
  deriving DecidableEq, Repr

/-- The five allow codes of a ZONE_SET ENTRY item, in axis-number order of the other axes (R38). -/
structure AllowArgs where
  a0 : Byte
  a1 : Byte
  a2 : Byte
  a3 : Byte
  a4 : Byte
  deriving DecidableEq, Repr

/-- The six argument characters of a MOVE item (R60, R180). -/
structure MoveArgs where
  axis : Byte
  direction : Byte
  target : Half
  hold : Byte
  cls : Byte
  deriving DecidableEq, Repr

/-- The hub's commands: one constructor for each row of spec/opcode_table.json, in the table's order. -/
inductive Instr where
  /-- Power comes on with the digital inputs at these levels (R157, R186). -/
  | powerOn (levels : Levels)
  /-- The sampler takes a sample with these voltages at the position inputs (R2, R183). -/
  | sample (voltages : Voltages)
  /-- A ring encoder count without index (R5). -/
  | ringCount
  /-- A ring encoder count with index (R6). -/
  | ringIndexCount
  /-- A rising or falling edge of the inclinometer, `elapsed` microseconds after the edge before it (R12, R13; log 6). -/
  | inclinometerEdge (rising : Bool) (elapsed : Nat)
  /-- The inclinometer edge timer runs out (R13). -/
  | inclinometerTimeout
  /-- The lease of this axis runs out (R51 to R53). -/
  | leaseExpiry (axis : Axis)
  /-- The wait timer of this axis's wait-queue entry runs out (R94). -/
  | waitTimeout (axis : Axis)
  /-- An edge of a film-break input to this level (R135). -/
  | filmBreakEdge (dispenser : Dispenser) (active : Bool)
  /-- A pulse of the chamber pulse pickup (R125). -/
  | netPulse
  /-- An edge of the net-feed input to this level (R128). -/
  | netFeedEdge (active : Bool)
  /-- The net start timer runs out (R129). -/
  | netStartTimeout
  /-- The net gap timer runs out (R130). -/
  | netGapTimeout
  /-- The cradle load switch becomes active (R108). -/
  | cradleLoadActive
  /-- The cradle load switch becomes inactive (R109). -/
  | cradleLoadInactive
  /-- The table load switch becomes active (R110). -/
  | tableLoadActive
  /-- The table load switch becomes inactive (R114). -/
  | tableLoadInactive
  /-- The transit timer runs out (R111). -/
  | transitTimeout
  /-- The cradle-wait stopwatch reaches its limit (R116). -/
  | tableLate
  /-- A full second of the field clock (R156). -/
  | fieldClockTick
  /-- An edge of the pre-chamber full input to this level (R117). -/
  | prechamberFullEdge (active : Bool)
  /-- The stop chain opens (R160). -/
  | stopInputActive
  /-- The stop chain closes (R160). -/
  | stopInputInactive
  /-- A character arrives on a port: its data value, its mark bit and its stop bit (R166, R167). -/
  | characterReceive (port : Role) (data : Byte) (mark stopHigh : Bool)
  /-- The handler takes up to `items` items of the frame handed over by this port (R171; log 11). -/
  | frameHandover (port : Role) (items : Nat)
  /-- The last character of a port's reply has been sent (R174). -/
  | replySent (port : Role)
  /-- A pending restart takes effect (R164). -/
  | restartEffect
  | claim (role : Role) (axis : Byte)
  | release (role : Role) (axis : Byte)
  | handover (role : Role) (axis recipient : Byte)
  | refresh (role : Role) (axis : Byte)
  | move (role : Role) (args : MoveArgs)
  | stop (role : Role) (axis : Byte)
  | allStop (role : Role)
  | axisRead (role : Role) (axis : Byte)
  | flowRead (role : Role)
  | baleStart (role : Role)
  | bindStart (role : Role)
  | bindRetry (role : Role)
  | wrapStart (role : Role)
  | filmReset (role : Role) (dispenser : Byte)
  | baleNote (role : Role) (value : Half)
  | baleDeclare (role : Role) (place stage : Byte)
  | baleRead (role : Role)
  | logRead (role : Role)
  | logDrop (role : Role) (count : Byte)
  | paramGet (role : Role) (index : Byte)
  | paramSet (role : Role) (index : Byte) (value : Half)
  | zoneGet (role : Role) (axis selector : Byte)
  | zoneSetBounds (role : Role) (axis : Byte) (bounds : BoundArgs)
  | zoneSetEntry (role : Role) (axis entry kind : Byte) (allow : AllowArgs)
  | modeSet (role : Role) (mode : Byte)
  | clearStop (role : Role)
  | restart (role : Role)
  | status (role : Role)
  | noticeRead (role : Role)
  | noticeClear (role : Role) (kinds : KindBits)
  | noticeMask (role : Role) (kinds : KindBits)
  deriving DecidableEq, Repr

end Sys2Proof
end

