-- ==== Sys2Proof/WellFormed.lean ====
section
/-! DEFINITION. Which commands are well formed. Almost every operand is held to its range by its type; two are not. -/

namespace Sys2Proof

/-- An inclinometer edge comes some time after the edge before it, and a hand-over takes one to four items (R170).
Every other command is well formed whatever its operands: codes out of range are values of the item, refused by the
owning block (R178). -/
def Instr.wellFormed : Instr → Bool
  | .inclinometerEdge _ elapsed => decide (0 < elapsed)
  | .frameHandover _ items => decide (1 ≤ items ∧ items ≤ 4)
  | .powerOn _ | .sample _ | .ringCount | .ringIndexCount | .inclinometerTimeout | .leaseExpiry _ | .waitTimeout _
  | .filmBreakEdge _ _ | .netPulse | .netFeedEdge _ | .netStartTimeout | .netGapTimeout | .cradleLoadActive
  | .cradleLoadInactive | .tableLoadActive | .tableLoadInactive | .transitTimeout | .tableLate | .fieldClockTick
  | .prechamberFullEdge _ | .stopInputActive | .stopInputInactive | .characterReceive _ _ _ _ | .replySent _
  | .restartEffect | .claim _ _ | .release _ _ | .handover _ _ _ | .refresh _ _ | .move _ _ | .stop _ _ | .allStop _
  | .axisRead _ _ | .flowRead _ | .baleStart _ | .bindStart _ | .bindRetry _ | .wrapStart _ | .filmReset _ _
  | .baleNote _ _ | .baleDeclare _ _ _ | .baleRead _ | .logRead _ | .logDrop _ _ | .paramGet _ _ | .paramSet _ _ _
  | .zoneGet _ _ _ | .zoneSetBounds _ _ _ | .zoneSetEntry _ _ _ _ _ | .modeSet _ _ | .clearStop _ | .restart _
  | .status _ | .noticeRead _ | .noticeClear _ _ | .noticeMask _ _ => true

end Sys2Proof
end

