-- ==== Sys2Proof/Decode.lean ====
section
/-! DEFINITION. The decoder of table words. No row of spec/opcode_table.json gives bits, so no word spells a command. The
item characters of a frame are decoded where frames are taken (Machine/Frames.lean, R178). -/

namespace Sys2Proof

/-- The command that a table word spells: none, since no row of the table gives bits. -/
def decodeTableWord (_nbits _w : Nat) : Option Instr := none

end Sys2Proof
end

