-- ==== Sys2Proof/Config.lean ====
section
/-! DEFINITION. What the part fixes, and the free values: choices the spec leaves open, held as constants with no body so
that nothing can be proved of what they are. -/

namespace Sys2Proof.Config

/-- FREE VALUE (log 5). R12 rounds a duty "to the nearest 0.1 %" and does not say which way a duty exactly between two
steps goes; true takes the upper step. A function of the high time and the period measured. -/
opaque dutyTieUp : Nat → Nat → Bool

/-- FREE VALUE (log 20). R183 converts a position input linearly and does not say which of the two nearest readings a voltage
between them gives; true takes the upper one. A function of the voltage. -/
opaque conversionUp : Nat → Bool

/-- FREE VALUE (log 3). Which of several timers that run out together is taken first: "taken in either order" (R54, R95).
A function of the model's own counter of choices. -/
opaque dueChoice : Nat → Nat

/-- The input voltage of one conversion step, in the unit of an input's voltage (R183; log 20). -/
def voltsPerStep : Nat := 1000

/-- The greatest raw reading, given by 3.0 V or more (R183). -/
def readingMax : Nat := 4095

/-- The bale log holds at most 32 records (R121). -/
def logCapacity : Nat := 32

/-- LOG_HIGH is posted when the log passes from fewer than 24 records to 24 or more (R121). -/
def logHigh : Nat := 24

/-- The break list of a bale holds at most 4 entries (R136). -/
def breakCapacity : Nat := 4

/-- The transit timer's fixed length of 3 s, in units of 10 ms (R109). -/
def transitLength : Nat := 300

/-- The inclinometer edge timer's 100 ms, in units of 10 ms (R13). -/
def edgeTimerLength : Nat := 10

/-- The same 100 ms in microseconds, the unit of an edge's elapsed time (R13; log 6). -/
def edgeTimerMicros : Nat := 100000

/-- Units of 10 ms in one second (R49, R85). -/
def unitsPerSecond : Nat := 100

/-- The cradle wait stops counting at 65535 s (R115). -/
def cradleWaitMax : Nat := 65535

/-- Encoder counts of one ring revolution (R1). -/
def ringCounts : Nat := 720

/-- A reply area holds at most 253 characters (R173). -/
def replyAreaMax : Nat := 253

/-- A frame of five or more items is not taken (R170). -/
def frameItemsMax : Nat := 4

end Sys2Proof.Config
end

