-- ==== Sys2Proof/Machine/State.lean ====
section
/-! DEFINITION. The state of the hub, block by block as 00_scope section 2 lists them, plain data throughout, with the
machine right after reset. Every field names the rule that gives it; INVENTORY.md lists them with their reset values. -/

namespace Sys2Proof.Machine

/-- One value for each of the six axes, in axis-number order (R1). -/
structure PerAxis (α : Type) where
  flap : α
  tailgate : α
  cradle : α
  ring : α
  tilt : α
  cutter : α
  deriving DecidableEq, Repr

/-- One value for each of the three roles, and so for each station port. -/
structure PerRole (α : Type) where
  ch : α
  wr : α
  ct : α
  deriving DecidableEq, Repr

/-- The two directions of motion (R1). -/
inductive Direction where
  | extend | retract
  deriving DecidableEq, Repr

/-- The state of an axis record (R16). -/
inductive AxisState where
  | idle | claimed | waiting | moving | paused
  deriving DecidableEq, Repr

/-- The target of a motion: a position or ring angle, or the ring's RUN kind (R15, R60). -/
inductive Target where
  | to (value : Nat)
  | run
  deriving DecidableEq, Repr

/-- The class of a motion (R60). -/
inductive MotionClass where
  | normal | urgent
  deriving DecidableEq, Repr

/-- How the last motion or claim of an axis ended (04 section 4.11). -/
inductive EndCause where
  | none | arrived | limit | stopped | stoppedOther | allStop | blocked | gate | slope | filmOut | sensor | expired
  | waitTimeout | released | mode
  deriving DecidableEq, Repr

/-- A zone: 0 to 7 of a valid position, or U (R9). -/
inductive Zone where
  | number (n : Fin 8)
  | unknown
  deriving DecidableEq, Repr

/-- The type of a zone entry: OPEN, LOW_END, HIGH_END, KEEP_OUT (R20). -/
inductive ZoneType where
  | openZone | lowEnd | highEnd | keepOut
  deriving DecidableEq, Repr

/-- An allow value (R21). -/
inductive Allow where
  | none | extend | retract | both
  deriving DecidableEq, Repr

/-- What the sampler derived for one axis at the latest sample (R2, R3, R8, R9), with the raw reading it was derived from. -/
structure Sense where
  raw : Nat
  position : Nat
  valid : Bool
  zone : Zone
  deriving DecidableEq, Repr

/-- The inclinometer edge timer (R13). -/
inductive EdgeTimer where
  | stopped
  /-- running, with the time left in units of 10 ms -/
  | running (left : Nat)
  | ranOut
  deriving DecidableEq, Repr

/-- The inclinometer period being measured (R12); `spoilt` says that the edge timer has run out within it. -/
inductive Period where
  /-- no rising edge has begun a period yet -/
  | noPeriod
  /-- the signal is high since the rising edge that began the period -/
  | highPart (spoilt : Bool)
  /-- the falling edge has come, after this high time in microseconds -/
  | lowPart (highTime : Nat) (spoilt : Bool)
  deriving DecidableEq, Repr

/-- The position sampler (R2 to R14). -/
structure Sampler where
  sense : PerAxis Sense
  /-- no sample has been taken since power-on or RESTART (R4) -/
  fresh : Bool
  /-- a sample has been taken since power-on, so that the output pins follow the state (R183) -/
  sampled : Bool
  ringReferenced : Bool
  /-- the ring position held by the encoder counter (R5, R6) -/
  ringPosition : Nat
  /-- the latest measurement of the slope, in units of 0.1 degree (R12) -/
  slope : Int
  slopeValid : Bool
  /-- the slope captured at the latest sample (R2, R14) -/
  sampledSlope : Int
  sampledSlopeValid : Bool
  edgeTimer : EdgeTimer
  period : Period
  deriving DecidableEq, Repr

/-- The seven boundaries of one axis (R19). -/
structure Bounds where
  b1 : Nat
  b2 : Nat
  b3 : Nat
  b4 : Nat
  b5 : Nat
  b6 : Nat
  b7 : Nat
  deriving DecidableEq, Repr

/-- The five allow fields of an entry, in axis-number order of the other axes, omitting the owner (02 section 2.1). -/
structure AllowFields where
  a0 : Allow
  a1 : Allow
  a2 : Allow
  a3 : Allow
  a4 : Allow
  deriving DecidableEq, Repr

/-- One zone entry (R19). -/
structure ZoneEntry where
  kind : ZoneType
  allow : AllowFields
  deriving DecidableEq, Repr

/-- The nine entries of one axis: zones 0 to 7, and U (R19). -/
structure ZoneEntries where
  z0 : ZoneEntry
  z1 : ZoneEntry
  z2 : ZoneEntry
  z3 : ZoneEntry
  z4 : ZoneEntry
  z5 : ZoneEntry
  z6 : ZoneEntry
  z7 : ZoneEntry
  u : ZoneEntry
  deriving DecidableEq, Repr

/-- The zone map of one axis (R19). -/
structure AxisMap where
  bounds : Bounds
  entries : ZoneEntries
  deriving DecidableEq, Repr

/-- An axis record (R15). Times are in units of 10 ms, flow in flow units. -/
structure AxisRecord where
  state : AxisState
  holder : Option Role
  lastHolder : Option Role
  direction : Direction
  target : Target
  cls : MotionClass
  holdTime : Nat
  lease : Nat
  lastEnd : EndCause
  flow : Nat
  deriving DecidableEq, Repr

/-- The two valve enable outputs of one axis; true is on (R71). Until the first sample the pins stay low (R183). -/
structure Valves where
  extend : Bool
  retract : Bool
  deriving DecidableEq, Repr

/-- The claim table: six axis records and the twelve valve enable outputs (R15, R71). -/
structure ClaimTable where
  records : PerAxis AxisRecord
  valves : PerAxis Valves
  deriving DecidableEq, Repr

/-- The class of a wait-queue entry (R83). -/
inductive WaitClass where
  | urgent | resume | normal
  deriving DecidableEq, Repr

/-- A wait-queue entry (R83); `left` is its wait remaining in units of 10 ms. -/
structure WaitEntry where
  axis : Axis
  cls : WaitClass
  left : Nat
  deriving DecidableEq, Repr

/-- The flow arbiter (R82, R83). -/
structure Arbiter where
  inUse : Nat
  /-- the MOVING axes, oldest grant first -/
  grantOrder : List Axis
  /-- the wait queue from its head -/
  queue : List WaitEntry
  deriving DecidableEq, Repr

/-- The stages of a bale; DROPPED in the log only (R98, R100). -/
inductive Stage where
  | forming | binding | bound | ejecting | carried | onTable | wrapping | wrapped | dropping | dropped
  deriving DecidableEq, Repr

/-- The three places of the bale path (R99). -/
inductive Place where
  | chamber | cradle | table
  deriving DecidableEq, Repr

/-- The flags of a bale record (R98). -/
structure BaleFlags where
  recovered : Bool
  netMiss : Bool
  netShort : Bool
  breaksOver : Bool
  tableLate : Bool
  unplanned : Bool
  logDisplaced : Bool
  deriving DecidableEq, Repr

/-- The net part of a bale record (R98). -/
structure NetPart where
  target : Nat
  pulses : Nat
  deriving DecidableEq, Repr

/-- One entry of a break list (R98, R136). -/
structure FilmBreak where
  dispenser : Dispenser
  layers : Nat
  angle : Nat
  deriving DecidableEq, Repr

/-- The film part of a bale record (R98). -/
structure FilmPart where
  target : Nat
  layers : Nat
  breaks : List FilmBreak
  deriving DecidableEq, Repr

/-- A bale record (R98). Its place is where it is held: a slot of the bale queue, or the log (LOGGED). An optional part
is `none` until the event that makes it present. -/
structure Bale where
  number : Nat
  stage : Stage
  flags : BaleFlags
  startTime : Quad
  moisture : Option Nat
  net : Option NetPart
  cradleWait : Option Nat
  film : Option FilmPart
  weight : Option Nat
  dropTime : Option Quad
  deriving DecidableEq, Repr

/-- The running cradle-wait stopwatch: its limit in seconds and its part of the current second (R115, R116). Its count is
the cradle wait of the bale at CRADLE. -/
structure Stopwatch where
  limit : Nat
  phase : Nat
  deriving DecidableEq, Repr

/-- The bale tracker (06). The bale queue is the records at the three places, at most one at each (R99). -/
structure Tracker where
  chamber : Option Bale
  cradle : Option Bale
  table : Option Bale
  /-- the bale log, oldest first (R121) -/
  log : List Bale
  /-- the next bale number (R101) -/
  nextNumber : Nat
  /-- the transit timer: stopped, or its time left in units of 10 ms (R109) -/
  transit : Option Nat
  /-- the cradle-wait stopwatch: stopped, or running (R115) -/
  stopwatch : Option Stopwatch
  /-- the FEED HOLD output; true is asserted (R117) -/
  feedHold : Bool
  deriving DecidableEq, Repr

/-- The net watch state (R124). -/
inductive NetWatch where
  | off | startWait | feeding | gapWait | halted
  deriving DecidableEq, Repr

/-- The state of a dispenser (R124). -/
inductive DispenserState where
  | ready | broken
  deriving DecidableEq, Repr

/-- The layer counter (R124). Timers: stopped, or the time left in units of 10 ms. -/
structure LayerCounter where
  watch : NetWatch
  startTimer : Option Nat
  gapTimer : Option Nat
  dispenserA : DispenserState
  dispenserB : DispenserState
  deriving DecidableEq, Repr

/-- The notice sets and the attention line of one port (R141, R149); bit k of a set is kind k. -/
structure NoticePort where
  pending : BitVec 17
  enable : BitVec 17
  line : Bool
  deriving DecidableEq, Repr

/-- The parameters (R151). A claimant set is three bits: CH, WR, CT from bit 0 (R178). -/
structure Params where
  flowBudget : Nat
  demand : PerAxis Nat
  urgentOk : PerAxis Bool
  claimants : PerAxis (BitVec 3)
  tolerance : PerAxis Nat
  ringPark : Nat
  slopeLimit : Nat
  claimLease : Nat
  waitLimit : Nat
  netTarget : Nat
  netStartLimit : Nat
  netGapLimit : Nat
  filmTarget : Nat
  tableLateLimit : Nat
  deriving DecidableEq, Repr

/-- The field clock (R156): its seconds, and the part of the current second in units of 10 ms (log 2). -/
structure FieldClock where
  seconds : Quad
  phase : Nat
  deriving DecidableEq, Repr

/-- The mode (R157). -/
inductive Mode where
  | setup | run | stopped
  deriving DecidableEq, Repr

/-- The last reset kind (R157). -/
inductive ResetKind where
  | powerOn | restart
  deriving DecidableEq, Repr

/-- The mode controller (R157). -/
structure ModeControl where
  mode : Mode
  stopLatch : Bool
  mapChecked : Bool
  lastReset : ResetKind
  restartPending : Bool
  deriving DecidableEq, Repr

/-- A complete frame in a receive buffer: its count character and the characters after it (R167). -/
structure Frame where
  count : Byte
  chars : List Byte
  deriving DecidableEq, Repr

/-- The receiver of a port (R167). -/
inductive Receiver where
  | waitMark
  /-- a frame in assembly: its count character and the characters stored so far -/
  | collecting (count : Byte) (chars : List Byte)
  /-- a complete frame held untaken in the receive buffer (R175) -/
  | holding (frame : Frame)
  deriving DecidableEq, Repr

/-- A character as the transmitter sends it: its mark bit and its data value (R166). -/
structure LineChar where
  mark : Bool
  data : Byte
  deriving DecidableEq, Repr

/-- A station port (10): receiver and receive buffer, reply-pending condition, and the reply being sent. -/
structure Port where
  receiver : Receiver
  replyPending : Bool
  /-- the characters of the reply in transmission; none while the transmitter is idle (R174) -/
  sending : Option (List LineChar)
  deriving DecidableEq, Repr

/-- The outcome codes of a reply entry (R179). -/
inductive Verdict where
  | ok | queued | busy | notHolder | late | notAllowed | wrongMode | interlock | gate | noPosition | badValue
  | badRequest | mapInvalid | skipped | checkError
  deriving DecidableEq, Repr

/-- The outcome of an item with its result data (R173). -/
structure Answer where
  verdict : Verdict
  data : List Byte
  deriving DecidableEq, Repr

/-- A reply entry: request code, outcome and result data (R173). -/
structure Entry where
  request : Byte
  answer : Answer
  deriving DecidableEq, Repr

/-- One item delimited in an item area; `residue` marks the characters left over at its end (R170). -/
structure RawItem where
  code : Byte
  args : List Byte
  residue : Bool
  deriving DecidableEq, Repr

/-- The request handler (R171). -/
inductive Handler where
  | free
  /-- a frame has been handed over by this port and none of its items is taken yet -/
  | handed (port : Role) (frame : Frame)
  /-- the items of a frame are being taken: those left, the entries built, and whether a refusal was met (R172) -/
  | taking (port : Role) (items : List RawItem) (entries : List Entry) (refused : Bool)
  deriving DecidableEq, Repr

/-- Everything the spec gives the part, block by block. -/
structure Hub where
  inputs : Levels
  sampler : Sampler
  map : PerAxis AxisMap
  claims : ClaimTable
  arbiter : Arbiter
  tracker : Tracker
  counter : LayerCounter
  notices : PerRole NoticePort
  params : Params
  clock : FieldClock
  control : ModeControl
  ports : PerRole Port
  handler : Handler
  /-- the ports that hold a complete frame, in the order in which their frames completed (R171) -/
  heldOrder : List Role
  /-- the reply entry of the item taken last -/
  lastEntry : Option Entry
  deriving DecidableEq, Repr

/-- The model's state: the commands waiting, first in first out; the part; and the counter that feeds the free choice
among timers that run out together (log 1, log 3). -/
structure State where
  pending : List Instr
  hub : Hub
  choices : Nat
  deriving DecidableEq, Repr

/-- Reasons for a fault. The part has no trap: a refused item is answered with a code and the part goes on (R172). -/
inductive Fault where
  /-- Raised by no command. It stands so that the type is not empty; safe. -/
  | neverRaised
  deriving DecidableEq, Repr

/-- Reasons for a refusal. -/
inductive Refusal where
  /-- Raised only by an arm of exec whose command has no meaning yet; there is none. Safe: nothing is claimed of it. -/
  | notModelled (mnemonic : String)
  deriving DecidableEq, Repr

/-- The same value for every axis. -/
def PerAxis.all {α : Type} (x : α) : PerAxis α := ⟨x, x, x, x, x, x⟩

/-- The same value for every role. -/
def PerRole.all {α : Type} (x : α) : PerRole α := ⟨x, x, x⟩

/-- An axis record at power-on and after RESTART (R17). -/
def AxisRecord.reset : AxisRecord :=
  { state := .idle, holder := none, lastHolder := none, direction := .extend, target := .to 0, cls := .normal,
    holdTime := 5, lease := 0, lastEnd := .none, flow := 0 }

/-- The claim table at power-on and after RESTART: every axis IDLE and all twelve outputs off (R17). -/
def ClaimTable.reset : ClaimTable := { records := .all .reset, valves := .all ⟨false, false⟩ }

/-- The arbiter at power-on and after RESTART (R82, R83). -/
def Arbiter.reset : Arbiter := { inUse := 0, grantOrder := [], queue := [] }

/-- The sampler at power-on (R13, R17); the raw readings are DESIGN CHOICE 0 (log 8). -/
def Sampler.reset : Sampler :=
  { sense := .all { raw := 0, position := 0, valid := false, zone := .unknown }, fresh := true, sampled := false,
    ringReferenced := false, ringPosition := 0, slope := 0, slopeValid := false, sampledSlope := 0,
    sampledSlopeValid := false, edgeTimer := .stopped, period := .noPeriod }

/-- A zone entry at power-on: type OPEN, every allow field NONE (R19). -/
def ZoneEntry.reset : ZoneEntry := { kind := .openZone, allow := ⟨.none, .none, .none, .none, .none⟩ }

/-- The map of one axis at power-on: every boundary 0 (R19). -/
def AxisMap.reset : AxisMap :=
  { bounds := ⟨0, 0, 0, 0, 0, 0, 0⟩,
    entries := ⟨.reset, .reset, .reset, .reset, .reset, .reset, .reset, .reset, .reset⟩ }

/-- The parameters at power-on (R151). -/
def Params.reset : Params :=
  { flowBudget := 0, demand := .all 0, urgentOk := .all false, claimants := .all 0#3, tolerance := .all 8,
    ringPark := 0, slopeLimit := 120, claimLease := 30, waitLimit := 10, netTarget := 40, netStartLimit := 5,
    netGapLimit := 10, filmTarget := 24, tableLateLimit := 90 }

/-- The bale tracker at power-on (R99, R101, R109, R115, R117, R121). -/
def Tracker.reset : Tracker :=
  { chamber := none, cradle := none, table := none, log := [], nextNumber := 1, transit := none, stopwatch := none,
    feedHold := false }

/-- The layer counter at power-on (R124). -/
def LayerCounter.reset : LayerCounter :=
  { watch := .off, startTimer := none, gapTimer := none, dispenserA := .ready, dispenserB := .ready }

/-- A port's notice sets at power-on and after RESTART: both empty, the line inactive (R150). -/
def NoticePort.reset : NoticePort := { pending := 0#17, enable := 0#17, line := false }

/-- A station port at power-on (R177). -/
def Port.reset : Port := { receiver := .waitMark, replyPending := false, sending := none }

/-- The mode controller at power-on, before the stop input is looked at (R157). -/
def ModeControl.reset : ModeControl :=
  { mode := .setup, stopLatch := false, mapChecked := false, lastReset := .powerOn, restartPending := false }

/-- The part at power-on with every digital input inactive (DESIGN CHOICE, log 7). -/
def Hub.reset : Hub :=
  { inputs := ⟨false, false, false, false, false, false, false⟩, sampler := .reset, map := .all .reset,
    claims := .reset, arbiter := .reset, tracker := .reset, counter := .reset, notices := .all .reset,
    params := .reset, clock := ⟨0#32, 0⟩, control := .reset, ports := .all .reset, handler := .free,
    heldOrder := [], lastEntry := none }

/-- The machine right after power-on, with an empty queue. -/
def State.reset : State := { pending := [], hub := .reset, choices := 0 }

end Sys2Proof.Machine
end

