-- ==== Sys2Proof/Machine/Access.lean ====
section
/-! DEFINITION. Reading and writing one part of the state: the value of one axis, of one role, of one zone entry, of one
allow field. Every other file goes through these. -/

namespace Sys2Proof

/-- The axes in number order (R1). -/
def Axis.list : List Axis := [.flap, .tailgate, .cradle, .ring, .tilt, .cutter]

/-- An axis's number (R1). -/
def Axis.number : Axis → Nat
  | .flap => 0
  | .tailgate => 1
  | .cradle => 2
  | .ring => 3
  | .tilt => 4
  | .cutter => 5

/-- The axis of a number; none above 5. -/
def Axis.ofNumber : Nat → Option Axis
  | 0 => some .flap
  | 1 => some .tailgate
  | 2 => some .cradle
  | 3 => some .ring
  | 4 => some .tilt
  | 5 => some .cutter
  | _ => none

/-- The roles in number order (R178). -/
def Role.list : List Role := [.ch, .wr, .ct]

/-- A role's code (R178). -/
def Role.number : Role → Nat
  | .ch => 0
  | .wr => 1
  | .ct => 2

/-- The role of a code; none above 2. -/
def Role.ofNumber : Nat → Option Role
  | 0 => some .ch
  | 1 => some .wr
  | 2 => some .ct
  | _ => none

namespace Machine

/-- The value of one axis. -/
def PerAxis.get {α : Type} (p : PerAxis α) : Axis → α
  | .flap => p.flap
  | .tailgate => p.tailgate
  | .cradle => p.cradle
  | .ring => p.ring
  | .tilt => p.tilt
  | .cutter => p.cutter

/-- The same values with one axis's replaced. -/
def PerAxis.set {α : Type} (p : PerAxis α) (a : Axis) (x : α) : PerAxis α :=
  match a with
  | .flap => { p with flap := x }
  | .tailgate => { p with tailgate := x }
  | .cradle => { p with cradle := x }
  | .ring => { p with ring := x }
  | .tilt => { p with tilt := x }
  | .cutter => { p with cutter := x }

/-- The value of one role. -/
def PerRole.get {α : Type} (p : PerRole α) : Role → α
  | .ch => p.ch
  | .wr => p.wr
  | .ct => p.ct

/-- The same values with one role's replaced. -/
def PerRole.set {α : Type} (p : PerRole α) (r : Role) (x : α) : PerRole α :=
  match r with
  | .ch => { p with ch := x }
  | .wr => { p with wr := x }
  | .ct => { p with ct := x }

/-- The zone of an entry number 0 to 8, 8 being U (R36); none above 8. -/
def Zone.ofEntry (n : Nat) : Option Zone :=
  if h : n < 8 then some (.number ⟨n, h⟩) else if n = 8 then some .unknown else none

/-- The code of a zone in the axis record reply: 0–7, or 8 for U (R181). -/
def Zone.code : Zone → Nat
  | .number n => n.val
  | .unknown => 8

/-- The entry of a zone, the U entry for U (R22). -/
def ZoneEntries.get (e : ZoneEntries) : Zone → ZoneEntry
  | .number 0 => e.z0
  | .number 1 => e.z1
  | .number 2 => e.z2
  | .number 3 => e.z3
  | .number 4 => e.z4
  | .number 5 => e.z5
  | .number 6 => e.z6
  | .number 7 => e.z7
  | .unknown => e.u

/-- The entries with one of them replaced. -/
def ZoneEntries.set (e : ZoneEntries) (z : Zone) (x : ZoneEntry) : ZoneEntries :=
  match z with
  | .number 0 => { e with z0 := x }
  | .number 1 => { e with z1 := x }
  | .number 2 => { e with z2 := x }
  | .number 3 => { e with z3 := x }
  | .number 4 => { e with z4 := x }
  | .number 5 => { e with z5 := x }
  | .number 6 => { e with z6 := x }
  | .number 7 => { e with z7 := x }
  | .unknown => { e with u := x }

/-- The allow field for axis `other` in an entry of axis `owner`: the five fields stand in axis-number order of the other
axes, omitting the owner (02 section 2.1). An entry has no field for its owner, whom it does not restrict (R21). -/
def AllowFields.towards (f : AllowFields) (owner other : Axis) : Allow :=
  match if other.number < owner.number then other.number else other.number - 1 with
  | 0 => f.a0
  | 1 => f.a1
  | 2 => f.a2
  | 3 => f.a3
  | _ => f.a4

/-- A direction is contained in an allow value when it is listed for it (R21). -/
def Allow.contains : Allow → Direction → Bool
  | .none, _ => false
  | .extend, d => d == .extend
  | .retract, d => d == .retract
  | .both, _ => true

/-- The seven boundaries in order. -/
def Bounds.toList (b : Bounds) : List Nat := [b.b1, b.b2, b.b3, b.b4, b.b5, b.b6, b.b7]

/-- The zone of a position: the number of boundaries less than or equal to it (R9). -/
def Bounds.zoneOf (b : Bounds) (position : Nat) : Zone :=
  .number (Fin.ofNat 8 ((b.toList.filter (· ≤ position)).length))

/-- The output that a motion in this direction turns on, the other being off (R71). -/
def Valves.towards : Direction → Valves
  | .extend => ⟨true, false⟩
  | .retract => ⟨false, true⟩

/-- Both outputs off. -/
def Valves.off : Valves := ⟨false, false⟩

/-- The record of an axis. -/
def Hub.record (h : Hub) (a : Axis) : AxisRecord := h.claims.records.get a

/-- What the latest sample derived for an axis. -/
def Hub.sense (h : Hub) (a : Axis) : Sense := h.sampler.sense.get a

/-- The hub with an axis's record replaced. -/
def Hub.setRecord (h : Hub) (a : Axis) (r : AxisRecord) : Hub :=
  { h with claims := { h.claims with records := h.claims.records.set a r } }

/-- The hub with an axis's valve enable outputs replaced. -/
def Hub.setValves (h : Hub) (a : Axis) (v : Valves) : Hub :=
  { h with claims := { h.claims with valves := h.claims.valves.set a v } }

/-- The current entry of an axis: that of its current zone, or its U entry (R22, R23). -/
def Hub.currentEntry (h : Hub) (a : Axis) : ZoneEntry := (h.map.get a).entries.get (h.sense a).zone

/-- The state of a dispenser. -/
def LayerCounter.dispenser (c : LayerCounter) : Dispenser → DispenserState
  | .a => c.dispenserA
  | .b => c.dispenserB

/-- The counter with a dispenser's state replaced. -/
def LayerCounter.setDispenser (c : LayerCounter) (d : Dispenser) (x : DispenserState) : LayerCounter :=
  match d with
  | .a => { c with dispenserA := x }
  | .b => { c with dispenserB := x }

/-- The number of dispensers that are READY (R133). -/
def LayerCounter.readyCount (c : LayerCounter) : Nat :=
  (if c.dispenserA = .ready then 1 else 0) + (if c.dispenserB = .ready then 1 else 0)

/-- The record at a place. -/
def Tracker.at (t : Tracker) : Place → Option Bale
  | .chamber => t.chamber
  | .cradle => t.cradle
  | .table => t.table

/-- The tracker with the record at a place replaced. -/
def Tracker.put (t : Tracker) (p : Place) (b : Option Bale) : Tracker :=
  match p with
  | .chamber => { t with chamber := b }
  | .cradle => { t with cradle := b }
  | .table => { t with table := b }

/-- The stage of the record at a place, none when it is empty. -/
def Tracker.stageAt (t : Tracker) (p : Place) : Option Stage := (t.at p).map (·.stage)

/-- The bale queue, downstream first, omitting empty places (R99, R120). -/
def Tracker.queue (t : Tracker) : List (Place × Bale) :=
  (t.table.map (Place.table, ·)).toList ++ (t.cradle.map (Place.cradle, ·)).toList
    ++ (t.chamber.map (Place.chamber, ·)).toList

end Machine
end Sys2Proof
end

