-- ==== Sys2Proof/Machine/Flags.lean ====
section
/-! DEFINITION. The flags the part computes from its state: notice kinds and their bits, the attention line, posting, the
FEED HOLD condition, the output pins and the flags of a bale record as a character. -/

namespace Sys2Proof.Machine

/-- The seventeen kinds of notice (R141). -/
inductive Notice where
  | axis (a : Axis)
  | netDone | netFault | filmDone | filmBreak | baleMoved | tableLate | logHigh | stopLatched | sensorFault | feedHold
  | linkOverrun
  deriving DecidableEq, Repr

/-- A kind's number (R141). -/
def Notice.number : Notice → Nat
  | .axis a => a.number
  | .netDone => 6
  | .netFault => 7
  | .filmDone => 8
  | .filmBreak => 9
  | .baleMoved => 10
  | .tableLate => 11
  | .logHigh => 12
  | .stopLatched => 13
  | .sensorFault => 14
  | .feedHold => 15
  | .linkOverrun => 16

/-- The set that holds one kind alone. -/
def Notice.bit (n : Notice) : BitVec 17 := 1#17 <<< n.number

/-- The line that agrees with a port's sets: active exactly while a pending kind is enabled (R149). -/
def NoticePort.lineOf (p : NoticePort) : Bool := p.pending &&& p.enable != 0#17

/-- The port with its line brought into agreement with its sets (R149). -/
def NoticePort.settle (p : NoticePort) : NoticePort := { p with line := p.lineOf }

/-- A kind added to the pending set (R142). -/
def NoticePort.post (p : NoticePort) (n : Notice) : NoticePort := { p with pending := p.pending ||| n.bit }.settle

/-- The named kinds removed from the pending set (R147). -/
def NoticePort.clear (p : NoticePort) (kinds : BitVec 17) : NoticePort :=
  { p with pending := p.pending &&& ~~~kinds }.settle

/-- The enable set replaced (R148). -/
def NoticePort.mask (p : NoticePort) (kinds : BitVec 17) : NoticePort := { p with enable := kinds }.settle

/-- A notice posted to one role (R142). -/
def Hub.post (h : Hub) (n : Notice) (r : Role) : Hub :=
  { h with notices := h.notices.set r ((h.notices.get r).post n) }

/-- A notice posted to each role of a list; a role named twice is posted to once, a set being a set (R142). -/
def Hub.postTo (h : Hub) (n : Notice) (roles : List Role) : Hub := roles.foldl (fun h r => h.post n r) h

/-- "To CH, WR and CT" (R142). -/
def Hub.postAll (h : Hub) (n : Notice) : Hub := h.postTo n [.ch, .wr, .ct]

/-- An axis notice "to the holder and to CT, or once to CT when CT is the holder" (R142, R143). -/
def Hub.postAxis (h : Hub) (a : Axis) (holder : Option Role) : Hub := h.postTo (.axis a) (holder.toList ++ [.ct])

/-- The condition of FEED HOLD: the pre-chamber full input is active and the CHAMBER bale is BINDING, BOUND or EJECTING
(R117). -/
def Hub.feedHoldCondition (h : Hub) : Bool :=
  h.inputs.prechamberFull &&
    match h.tracker.stageAt .chamber with
    | some .binding | some .bound | some .ejecting => true
    | _ => false

/-- FEED HOLD evaluated again; at a change from deasserted to asserted FEED_HOLD goes to CH and CT (R117). -/
def Hub.evalFeedHold (h : Hub) : Hub :=
  let asserted := h.feedHoldCondition
  let h' := { h with tracker := { h.tracker with feedHold := asserted } }
  if asserted && !h.tracker.feedHold then h'.postTo .feedHold [.ch, .ct] else h'

/-- The levels of the output pins; true is high (11 section 11.5). -/
structure Pins where
  valves : PerAxis Valves
  feedHold : Bool
  attention : PerRole Bool
  deriving DecidableEq, Repr

/-- The pins as the part drives them (R183): a valve enable is high while it is on (R71), FEED HOLD is high while asserted
(R117), an attention line is low while active and high otherwise (R149); from power-on until the first sample the enables and
FEED HOLD are low and the attention lines high. -/
def Hub.pins (h : Hub) : Pins :=
  if h.sampler.sampled then
    { valves := h.claims.valves, feedHold := h.tracker.feedHold,
      attention := ⟨!h.notices.ch.line, !h.notices.wr.line, !h.notices.ct.line⟩ }
  else { valves := .all .off, feedHold := false, attention := .all true }

/-- A bit of a coded character. -/
def flagBit (b : Bool) (n : Nat) : Nat := if b then 2 ^ n else 0

/-- The flags character of a bale record (R182). -/
def BaleFlags.code (f : BaleFlags) : Nat :=
  flagBit f.recovered 0 + flagBit f.netMiss 1 + flagBit f.netShort 2 + flagBit f.breaksOver 3 + flagBit f.tableLate 4
    + flagBit f.unplanned 5 + flagBit f.logDisplaced 6

/-- No flag set: the flags of a record at BALE_START (R98). -/
def BaleFlags.empty : BaleFlags := ⟨false, false, false, false, false, false, false⟩

/-- The presence character of a bale record (R182). -/
def Bale.presence (b : Bale) : Nat :=
  flagBit b.moisture.isSome 0 + flagBit b.net.isSome 1 + flagBit b.cradleWait.isSome 2 + flagBit b.film.isSome 3
    + flagBit b.weight.isSome 4 + flagBit b.dropTime.isSome 5

end Sys2Proof.Machine
end

