-- ==== Sys2Proof/Machine/Operands.lean ====
section
/-! DEFINITION. Codes: what the argument characters of an item say and how results are written into reply characters
(spec/11_request_reference_and_formats.md, R178 to R182). -/

namespace Sys2Proof.Machine

/-! ### Characters -/

/-- One character. -/
def u8 (n : Nat) : List Byte := [BitVec.ofNat 8 n]

/-- Two characters, high character first (R178). -/
def u16 (n : Nat) : List Byte := [BitVec.ofNat 8 (n / 256), BitVec.ofNat 8 n]

/-- Four characters, high character first. -/
def u32 (v : Quad) : List Byte :=
  [v.extractLsb' 24 8, v.extractLsb' 16 8, v.extractLsb' 8 8, v.extractLsb' 0 8]

/-- A kind set as three characters, kind k at bit k (R178). -/
def kindChars (k : BitVec 17) : List Byte :=
  let w := k.setWidth 24
  [w.extractLsb' 16 8, w.extractLsb' 8 8, w.extractLsb' 0 8]

/-- A signed value of two characters in two's complement (R178). -/
def s16 (v : Int) : List Byte :=
  let w := BitVec.ofInt 16 v
  [w.extractLsb' 8 8, w.extractLsb' 0 8]

/-- A flag, latch or level: 1 when set or active, 0 otherwise (11 section 11.3.4). -/
def bool8 (b : Bool) : List Byte := u8 (if b then 1 else 0)

/-- Two argument characters read as one value, high character first (R178). -/
def half (high low : Byte) : Half := high ++ low

/-! ### Argument codes (R178, R180) -/

/-- An axis code; none above 5. -/
def argAxis (b : Byte) : Option Axis := Axis.ofNumber b.toNat

/-- A role code; none above 2. -/
def argRole (b : Byte) : Option Role := Role.ofNumber b.toNat

/-- A direction code (R180). -/
def argDirection (b : Byte) : Option Direction :=
  match b.toNat with
  | 0 => some .extend
  | 1 => some .retract
  | _ => none

/-- A class code (R180). -/
def argClass (b : Byte) : Option MotionClass :=
  match b.toNat with
  | 0 => some .normal
  | 1 => some .urgent
  | _ => none

/-- The target value 0xFFFF is the RUN kind, any other a position or an angle (R180). -/
def argTarget (w : Half) : Target := if w = 0xFFFF#16 then .run else .to w.toNat

/-- A dispenser code. -/
def argDispenser (b : Byte) : Option Dispenser :=
  match b.toNat with
  | 0 => some .a
  | 1 => some .b
  | _ => none

/-- A place code. -/
def argPlace (b : Byte) : Option Place :=
  match b.toNat with
  | 0 => some .chamber
  | 1 => some .cradle
  | 2 => some .table
  | _ => none

/-- A stage code; DROPPED is no argument. -/
def argStage (b : Byte) : Option Stage :=
  match b.toNat with
  | 0 => some .forming
  | 1 => some .binding
  | 2 => some .bound
  | 3 => some .ejecting
  | 4 => some .carried
  | 5 => some .onTable
  | 6 => some .wrapping
  | 7 => some .wrapped
  | 8 => some .dropping
  | _ => none

/-- A mode code of MODE_SET: SETUP or RUN; STOPPED cannot be requested (R158, R178). -/
def argMode (b : Byte) : Option Mode :=
  match b.toNat with
  | 0 => some .setup
  | 1 => some .run
  | _ => none

/-- A zone type code; 4 to 7 are reserved and codes above 7 have no meaning (R20). -/
def argZoneType (b : Byte) : Option ZoneType :=
  match b.toNat with
  | 0 => some .openZone
  | 1 => some .lowEnd
  | 2 => some .highEnd
  | 3 => some .keepOut
  | _ => none

/-- An allow code (R21). -/
def argAllow (b : Byte) : Option Allow :=
  match b.toNat with
  | 0 => some .none
  | 1 => some .extend
  | 2 => some .retract
  | 3 => some .both
  | _ => none

/-- The five allow fields of a ZONE_SET ENTRY; none when any code is above 3 (R38). -/
def argAllowFields (a : AllowArgs) : Option AllowFields :=
  match argAllow a.a0, argAllow a.a1, argAllow a.a2, argAllow a.a3, argAllow a.a4 with
  | some a0, some a1, some a2, some a3, some a4 => some ⟨a0, a1, a2, a3, a4⟩
  | _, _, _, _, _ => none

/-- A kind set; none when it names a number above 16 (R147, R148). -/
def argKinds (k : KindBits) : Option (BitVec 17) := if k.toNat < 2 ^ 17 then some (k.setWidth 17) else none

/-- The boundaries a ZONE_SET BOUNDS item carries. -/
def argBounds (b : BoundArgs) : Bounds :=
  ⟨b.b1.toNat, b.b2.toNat, b.b3.toNat, b.b4.toNat, b.b5.toNat, b.b6.toNat, b.b7.toNat⟩

/-! ### Result codes (R179, R181, R182) -/

/-- An outcome's code (R179). -/
def Verdict.code : Verdict → Nat
  | .ok => 0
  | .queued => 1
  | .busy => 2
  | .notHolder => 3
  | .late => 4
  | .notAllowed => 5
  | .wrongMode => 6
  | .interlock => 7
  | .gate => 8
  | .noPosition => 9
  | .badValue => 10
  | .badRequest => 11
  | .mapInvalid => 12
  | .skipped => 13
  | .checkError => 14

/-- An outcome other than OK and QUEUED is a refusal (R172). -/
def Verdict.isRefusal : Verdict → Bool
  | .ok | .queued => false
  | _ => true

def AxisState.code : AxisState → Nat
  | .idle => 0
  | .claimed => 1
  | .waiting => 2
  | .moving => 3
  | .paused => 4

/-- A holder: 0 CH, 1 WR, 2 CT, 3 none (R181). -/
def holderCode : Option Role → Nat
  | some r => r.number
  | none => 3

def Direction.code : Direction → Nat
  | .extend => 0
  | .retract => 1

/-- A target as R180 codes it: 0xFFFF for RUN. -/
def Target.code : Target → Nat
  | .to v => v
  | .run => 0xFFFF

def MotionClass.code : MotionClass → Nat
  | .normal => 0
  | .urgent => 1

/-- The queue class in FLOW_READ: 0 NORMAL, 1 URGENT, 2 RESUME (11 section 11.3.1). -/
def WaitClass.code : WaitClass → Nat
  | .normal => 0
  | .urgent => 1
  | .resume => 2

def EndCause.code : EndCause → Nat
  | .none => 0
  | .arrived => 1
  | .limit => 2
  | .stopped => 3
  | .stoppedOther => 4
  | .allStop => 5
  | .blocked => 6
  | .gate => 7
  | .slope => 8
  | .filmOut => 9
  | .sensor => 10
  | .expired => 11
  | .waitTimeout => 12
  | .released => 13
  | .mode => 14

def ZoneType.code : ZoneType → Nat
  | .openZone => 0
  | .lowEnd => 1
  | .highEnd => 2
  | .keepOut => 3

def Allow.code : Allow → Nat
  | .none => 0
  | .extend => 1
  | .retract => 2
  | .both => 3

/-- A mode in a result: 0 SETUP, 1 RUN, 2 STOPPED (11 section 11.3.4). -/
def Mode.code : Mode → Nat
  | .setup => 0
  | .run => 1
  | .stopped => 2

def ResetKind.code : ResetKind → Nat
  | .powerOn => 0
  | .restart => 1

def Stage.code : Stage → Nat
  | .forming => 0
  | .binding => 1
  | .bound => 2
  | .ejecting => 3
  | .carried => 4
  | .onTable => 5
  | .wrapping => 6
  | .wrapped => 7
  | .dropping => 8
  | .dropped => 9

/-- A place in a record reply; LOGGED is 3 (R182). -/
def placeCode : Option Place → Nat
  | some .chamber => 0
  | some .cradle => 1
  | some .table => 2
  | none => 3

def FilmBreak.chars (k : FilmBreak) : List Byte :=
  u8 (match k.dispenser with | .a => 0 | .b => 1) ++ u8 k.layers ++ u16 k.angle

/-- A bale record in a reply: the fixed head and then the parts that are present (R182). -/
def Bale.chars (place : Option Place) (b : Bale) : List Byte :=
  u16 b.number ++ u8 (placeCode place) ++ u8 b.stage.code ++ u8 b.flags.code ++ u8 b.presence ++ u32 b.startTime
    ++ (match b.moisture with | some m => u8 m | none => [])
    ++ (match b.net with | some n => u8 n.target ++ u8 n.pulses | none => [])
    ++ (match b.cradleWait with | some w => u16 w | none => [])
    ++ (match b.film with
        | some f => u8 f.target ++ u8 f.layers ++ u8 f.breaks.length ++ f.breaks.flatMap FilmBreak.chars
        | none => [])
    ++ (match b.weight with | some w => u16 w | none => [])
    ++ (match b.dropTime with | some t => u32 t | none => [])

/-- The characters of a reply entry: request code, outcome, length of the result data, result data (R179). -/
def Entry.chars (e : Entry) : List Byte :=
  e.request :: BitVec.ofNat 8 e.answer.verdict.code :: BitVec.ofNat 8 e.answer.data.length :: e.answer.data

/-- An outcome without result data. -/
def Answer.bare (v : Verdict) : Answer := ⟨v, []⟩

/-- State, holder and lease remaining: the data of CLAIM, RELEASE, HANDOVER and REFRESH (R59). -/
def AxisRecord.claimData (r : AxisRecord) : List Byte := u8 r.state.code ++ u8 (holderCode r.holder) ++ u16 r.lease

/-- State and holder: the data of STOP (R76). -/
def AxisRecord.stopData (r : AxisRecord) : List Byte := u8 r.state.code ++ u8 (holderCode r.holder)

/-- State, holder, lease remaining and flow in use: the data of MOVE (R60). -/
def AxisRecord.moveData (r : AxisRecord) : List Byte := r.claimData ++ u8 r.flow

/-! ### Request codes (R178) -/

/-- For each request code, the number of argument characters it admits and its largest reply entry (R178). -/
def requestForm (code : Byte) : Option (Nat × Nat) :=
  match code.toNat with
  | 0x11 => some (1, 7)
  | 0x12 => some (1, 7)
  | 0x13 => some (2, 7)
  | 0x14 => some (1, 7)
  | 0x15 => some (6, 9)
  | 0x16 => some (1, 5)
  | 0x17 => some (0, 4)
  | 0x18 => some (1, 24)
  | 0x19 => some (0, 43)
  | 0x21 => some (0, 6)
  | 0x22 => some (0, 6)
  | 0x23 => some (0, 6)
  | 0x24 => some (0, 6)
  | 0x25 => some (1, 4)
  | 0x26 => some (2, 5)
  | 0x27 => some (2, 6)
  | 0x28 => some (0, 120)
  | 0x29 => some (0, 164)
  | 0x2A => some (1, 4)
  | 0x31 => some (1, 8)
  | 0x32 => some (3, 8)
  | 0x33 => some (2, 19)
  | 0x34 => some (15, 3)
  | 0x35 => some (8, 3)
  | 0x41 => some (1, 5)
  | 0x42 => some (0, 5)
  | 0x43 => some (0, 5)
  | 0x44 => some (0, 13)
  | 0x51 => some (0, 9)
  | 0x52 => some (3, 12)
  | 0x53 => some (3, 9)
  | _ => none

/-- The item that a request code and its argument characters spell, sent by this role; none when it is malformed: an
unknown code, or a length its request does not admit (R170, R178). -/
def decodeItem (r : Role) (code : Byte) (args : List Byte) : Option Instr :=
  match code.toNat, args with
  | 0x11, [a] => some (.claim r a)
  | 0x12, [a] => some (.release r a)
  | 0x13, [a, p] => some (.handover r a p)
  | 0x14, [a] => some (.refresh r a)
  | 0x15, [a, d, th, tl, h, c] => some (.move r ⟨a, d, half th tl, h, c⟩)
  | 0x16, [a] => some (.stop r a)
  | 0x17, [] => some (.allStop r)
  | 0x18, [a] => some (.axisRead r a)
  | 0x19, [] => some (.flowRead r)
  | 0x21, [] => some (.baleStart r)
  | 0x22, [] => some (.bindStart r)
  | 0x23, [] => some (.bindRetry r)
  | 0x24, [] => some (.wrapStart r)
  | 0x25, [d] => some (.filmReset r d)
  | 0x26, [vh, vl] => some (.baleNote r (half vh vl))
  | 0x27, [p, g] => some (.baleDeclare r p g)
  | 0x28, [] => some (.baleRead r)
  | 0x29, [] => some (.logRead r)
  | 0x2A, [n] => some (.logDrop r n)
  | 0x31, [i] => some (.paramGet r i)
  | 0x32, [i, vh, vl] => some (.paramSet r i (half vh vl))
  | 0x33, [a, z] => some (.zoneGet r a z)
  | 0x34, [a, h1, l1, h2, l2, h3, l3, h4, l4, h5, l5, h6, l6, h7, l7] =>
    some (.zoneSetBounds r a ⟨half h1 l1, half h2 l2, half h3 l3, half h4 l4, half h5 l5, half h6 l6, half h7 l7⟩)
  | 0x35, [a, e, k, a0, a1, a2, a3, a4] => some (.zoneSetEntry r a e k ⟨a0, a1, a2, a3, a4⟩)
  | 0x41, [m] => some (.modeSet r m)
  | 0x42, [] => some (.clearStop r)
  | 0x43, [] => some (.restart r)
  | 0x44, [] => some (.status r)
  | 0x51, [] => some (.noticeRead r)
  | 0x52, [k2, k1, k0] => some (.noticeClear r (k2 ++ k1 ++ k0))
  | 0x53, [k2, k1, k0] => some (.noticeMask r (k2 ++ k1 ++ k0))
  | _, _ => none

end Sys2Proof.Machine
end

