-- ==== Sys2Proof/Machine/Ops.lean ====
section
/-! DEFINITION. The operations several commands share: ending and granting motions, the permission test and the gates, the
flow arbiter's queue and service, creating, advancing and logging bale records, and taking an item or an event. -/

namespace Sys2Proof.Machine

/-! ### Flow and leases -/

/-- DEMAND of an axis (R81). -/
def Hub.demand (h : Hub) (a : Axis) : Nat := h.params.demand.get a

/-- A motion fits when its DEMAND is at most the free flow, FLOW_BUDGET minus the flow in use (R81). -/
def Hub.fits (h : Hub) (a : Axis) : Bool := decide (h.demand a + h.arbiter.inUse ≤ h.params.flowBudget)

/-- The length of a lease at CLAIM_LEASE, in units of 10 ms (R49). -/
def Hub.claimLease (h : Hub) : Nat := h.params.claimLease * Config.unitsPerSecond

/-- The lease length that belongs to a record's state (R48, R49): stopped at 0 in IDLE. -/
def Hub.leaseLength (h : Hub) (r : AxisRecord) : Nat :=
  match r.state with
  | .idle => 0
  | .moving => r.holdTime
  | .claimed | .waiting | .paused => h.claimLease

/-- The lease restarted at the length that belongs to the state (R48). -/
def Hub.renewLease (h : Hub) (a : Axis) : Hub :=
  h.setRecord a { h.record a with lease := h.leaseLength (h.record a) }

/-- A MOVING axis's enable turned off and its flow returned to the arbiter; it leaves the grant order (R75, R82). The flow
returned is the flow in use of its record, which is its DEMAND while it moves (log 17). -/
def Hub.returnFlow (h : Hub) (a : Axis) : Hub :=
  let h := { h with arbiter := { h.arbiter with
    inUse := h.arbiter.inUse - (h.record a).flow, grantOrder := h.arbiter.grantOrder.filter (· ≠ a) } }
  (h.setValves a .off).setRecord a { h.record a with flow := 0 }

/-- An axis's entry removed from whatever place it holds in the wait queue (R93). -/
def Hub.dequeue (h : Hub) (a : Axis) : Hub :=
  { h with arbiter := { h.arbiter with queue := h.arbiter.queue.filter (fun e => e.axis ≠ a) } }

/-- What the end of a motion undoes first, by the state of the axis (R45, R75). -/
def Hub.undoMotion (h : Hub) (a : Axis) : Hub :=
  match (h.record a).state with
  | .moving => h.returnFlow a
  | .waiting | .paused => h.dequeue a
  | .idle | .claimed => h

/-- A state whose end returns flow or removes a queue entry, so that a service follows (R45, R52, R53, R90). -/
def AxisState.inFlight : AxisState → Bool
  | .waiting | .moving | .paused => true
  | .idle | .claimed => false

/-- A motion ends with the claim kept (R35, R74, R75): CLAIMED, lease at CLAIM_LEASE, cause set, axis notice posted. -/
def Hub.endMotion (h : Hub) (a : Axis) (cause : EndCause) : Hub :=
  let h := h.undoMotion a
  let r := h.record a
  (h.setRecord a { r with state := .claimed, lease := h.claimLease, lastEnd := cause }).postAxis a r.holder

/-- A claim is dropped (R45, R51, R58): IDLE, no holder, lease stopped at 0, last holder and cause set, notice posted to the
former holder and CT. -/
def Hub.dropClaim (h : Hub) (a : Axis) (cause : EndCause) : Hub :=
  let h := h.undoMotion a
  let r := h.record a
  (h.setRecord a { r with state := .idle, holder := none, lastHolder := r.holder, lease := 0, lastEnd := cause }).postAxis a
    r.holder

/-- The order to drop the claims on leaving RUN: every axis that is not IDLE, with cause MODE; the queue ends empty and the
flow in use 0, and no service follows (R58, R96). -/
def Hub.dropAllClaims (h : Hub) : Hub :=
  Axis.list.foldl (fun h a => if (h.record a).state = .idle then h else h.dropClaim a .mode) h

/-! ### The zone map (02) -/

/-- A direction forbidden by the END type of the axis's own zone (R20, R23, R33). -/
def ZoneType.forbids (k : ZoneType) (d : Direction) : Bool :=
  match k, d with
  | .highEnd, .extend | .lowEnd, .retract => true
  | _, _ => false

/-- Condition 1 of the permission test: the axis's own zone (R23). -/
def Hub.ownZoneOk (h : Hub) (a : Axis) (d : Direction) : Bool :=
  match (h.sense a).zone with
  | .unknown => a == .ring && (h.currentEntry a).kind == .openZone
  | .number _ => !(h.currentEntry a).kind.forbids d

/-- Whether axis `b` fails condition 2 or 3 of the permission test for axis `a` moving in direction `d`: b's current entry
does not allow a that direction, or b is MOVING in a direction that a's current entry does not allow b (R23). -/
def Hub.refusedBy (h : Hub) (a : Axis) (d : Direction) (b : Axis) : Bool :=
  b != a &&
    (!((h.currentEntry b).allow.towards b a).contains d ||
      ((h.record b).state == .moving &&
        !((h.currentEntry a).allow.towards a b).contains (h.record b).direction))

/-- The lowest-numbered other axis that fails condition 2 or 3 (R60). -/
def Hub.firstRefuser (h : Hub) (a : Axis) (d : Direction) : Option Axis := Axis.list.find? (h.refusedBy a d)

/-- The permission test (R23). -/
def Hub.permitted (h : Hub) (a : Axis) (d : Direction) : Bool := h.ownZoneOk a d && (h.firstRefuser a d).isNone

/-- The target lies in a zone of type KEEP_OUT, by the count of R9 on the boundaries; RUN has no target zone (R24). That the
boundaries are those the map holds when the MOVE is taken, new ones of a ZONE_SET before the next sample too, is the model's choice
(log 23): R10 and R37 say only that new boundaries are used from the next sample on. -/
def Hub.targetKeptOut (h : Hub) (a : Axis) : Target → Bool
  | .run => false
  | .to v => ((h.map.get a).entries.get ((h.map.get a).bounds.zoneOf v)).kind == .keepOut

/-! ### The bale gates (02 section 2.3) -/

/-- The slope condition of the TILT extend gate: valid at the latest sample, with magnitude at most SLOPE_LIMIT (R27). -/
def Hub.slopeOk (h : Hub) : Bool :=
  h.sampler.sampledSlopeValid && decide (h.sampler.sampledSlope.natAbs ≤ h.params.slopeLimit)

/-- The gate of a motion holds; a motion without a gate passes at once (R26). -/
def Hub.gateHolds (h : Hub) (a : Axis) (d : Direction) (t : Target) : Bool :=
  match a, d, t with
  | .tailgate, .extend, _ =>
    (match h.tracker.stageAt .chamber with
      | none | some .bound | some .ejecting => true
      | some _ => false) && h.tracker.cradle.isNone
  | .cradle, .extend, _ => h.tracker.table.isNone
  | .tilt, .extend, _ =>
    (match h.tracker.stageAt .table with
      | none | some .wrapped | some .dropping => true
      | some _ => false) && h.slopeOk && decide (h.tracker.log.length < Config.logCapacity)
  | .ring, _, .run => h.tracker.stageAt .table == some .wrapping && decide (1 ≤ h.counter.readyCount)
  | _, _, _ => true

/-- The re-check at grant, with the direction and target of the record: none when it passes, else the cause (R25). -/
def Hub.recheck (h : Hub) (a : Axis) : Option EndCause :=
  let r := h.record a
  if !h.ownZoneOk a r.direction then some .blocked
  else if !h.gateHolds a r.direction r.target then some .gate
  else if (h.firstRefuser a r.direction).isSome then some .blocked
  else none

/-! ### Bale records (06) -/

/-- The record at a place takes a new stage, with BALE_MOVED to all three roles (R100). -/
def Hub.advance (h : Hub) (p : Place) (b : Bale) (stage : Stage) : Hub :=
  { h with tracker := h.tracker.put p (some { b with stage := stage }) }.postAll .baleMoved

/-- A grant of TAILGATE or TILT in EXTEND reported to the tracker (R107). -/
def Hub.reportGrant (h : Hub) (a : Axis) (d : Direction) : Hub :=
  match a, d with
  | .tailgate, .extend =>
    match h.tracker.chamber with
    | some b => if b.stage = .bound then (h.advance .chamber b .ejecting).evalFeedHold else h
    | none => h
  | .tilt, .extend =>
    match h.tracker.table with
    | some b => if b.stage = .wrapped then h.advance .table b .dropping else h
    | none => h
  | _, _ => h

/-- The number after a bale number, from 65535 to 1 (R101). -/
def nextBaleNumber (n : Nat) : Nat := if 65535 ≤ n then 1 else n + 1

/-- The first number from `n` on that no record holds, passing over at most as many as are held (R101). -/
def freeBaleNumber (held : List Nat) : Nat → Nat → Nat
  | 0, n => n
  | fuel + 1, n => if held.contains n then freeBaleNumber held fuel (nextBaleNumber n) else n

/-- The numbers held in the bale queue and the bale log (R101). -/
def Tracker.heldNumbers (t : Tracker) : List Nat := (t.queue.map (·.2.number)) ++ t.log.map (·.number)

/-- The number the next record receives (R101). -/
def Tracker.assignedNumber (t : Tracker) : Nat := freeBaleNumber t.heldNumbers t.heldNumbers.length t.nextNumber

/-- A record at its creation: the next free number, the field clock as start time, no part present (R101). -/
def Hub.newBale (h : Hub) (stage : Stage) (recovered : Bool) : Bale :=
  { number := h.tracker.assignedNumber, stage := stage, flags := { BaleFlags.empty with recovered := recovered },
    startTime := h.clock.seconds, moisture := none, net := none, cradleWait := none, film := none, weight := none,
    dropTime := none }

/-- A record created at a place, with BALE_MOVED; the next bale number advances past the one assigned (R101). -/
def Hub.createBale (h : Hub) (p : Place) (stage : Stage) (recovered : Bool) : Hub :=
  let b := h.newBale stage recovered
  { h with tracker := { h.tracker.put p (some b) with nextNumber := nextBaleNumber b.number } }.postAll .baleMoved

/-- The stopwatch's count compared with its limit; at the limit an unflagged bale gains TABLE_LATE, posted to all (R116). -/
def Hub.lateCheck (h : Hub) : Hub :=
  match h.tracker.stopwatch, h.tracker.cradle with
  | some w, some b =>
    if w.limit ≤ b.cradleWait.getD 0 ∧ b.flags.tableLate = false then
      { h with tracker := { h.tracker with cradle := some { b with flags := { b.flags with tableLate := true } } } }.postAll
        .tableLate
    else h
  | _, _ => h

/-- The stopwatch started, if it is stopped, for a bale CARRIED at CRADLE while TABLE is occupied; the cradle wait is made
present at 0 if it was absent, and the limit is taken from TABLE_LATE_LIMIT (R115, R116). -/
def Hub.startStopwatch (h : Hub) : Hub :=
  match h.tracker.stopwatch, h.tracker.cradle, h.tracker.table with
  | none, some b, some _ =>
    if b.stage = .carried then
      { h with tracker := { h.tracker with
          cradle := some { b with cradleWait := some (b.cradleWait.getD 0) },
          stopwatch := some { limit := h.params.tableLateLimit, phase := 0 } } }.lateCheck
    else h
  | _, _, _ => h

/-- A record logged (R121): its place is empty, its drop time set, its stage DROPPED if the drop was planned and else kept
with UNPLANNED; a full log loses its oldest record and the new one carries LOG_DISPLACED; BALE_MOVED to all, LOG_HIGH to
CT when the count passes 24. -/
def Hub.logBale (h : Hub) (p : Place) (b : Bale) (planned : Bool) : Hub :=
  let full := decide (Config.logCapacity ≤ h.tracker.log.length)
  let kept := if full then h.tracker.log.drop 1 else h.tracker.log
  let flags := { b.flags with
    unplanned := b.flags.unplanned || !planned, logDisplaced := b.flags.logDisplaced || full }
  let logged := { b with
    stage := if planned then .dropped else b.stage, flags := flags, dropTime := some h.clock.seconds }
  let log := kept ++ [logged]
  let h' := { h with tracker := { h.tracker.put p none with log := log } }.postAll .baleMoved
  if h.tracker.log.length < Config.logHigh ∧ Config.logHigh ≤ log.length then h'.postTo .logHigh [.ct] else h'

/-! ### Grants, pauses and the wait queue (05) -/

/-- A grant starts a motion (R72): MOVING, the enable of the record's direction on, DEMAND added to the flow in use, the axis
at the end of the grant order, the lease at the hold time, and TAILGATE or TILT in EXTEND reported to the tracker. -/
def Hub.grant (h : Hub) (a : Axis) : Hub :=
  let r := h.record a
  let h := { h with arbiter := { h.arbiter with
    inUse := h.arbiter.inUse + h.demand a, grantOrder := h.arbiter.grantOrder ++ [a] } }
  ((h.setValves a (.towards r.direction)).setRecord a
    { r with state := .moving, flow := h.demand a, lease := r.holdTime }).reportGrant a r.direction

/-- The entry at the head removed and its motion granted, with the axis notice (R72, R91 step 4). -/
def Hub.grantFromQueue (h : Hub) (a : Axis) : Hub :=
  let h := (h.dequeue a).grant a
  h.postAxis a (h.record a).holder

/-- The arbiter's service (R91): from the head, an entry that fails its re-check is removed, one that passes and fits is
granted, and one that passes and does not fit stops the service. `fuel` is the number of entries. -/
def Hub.serve : Nat → Hub → Hub
  | 0, h => h
  | fuel + 1, h =>
    match h.arbiter.queue with
    | [] => h
    | e :: _ =>
      match h.recheck e.axis with
      | some cause => ((h.endMotion e.axis cause).dequeue e.axis).serve fuel
      | none => if h.fits e.axis then (h.grantFromQueue e.axis).serve fuel else h

/-- One service over the whole queue (R90, R91). -/
def Hub.service (h : Hub) : Hub := h.serve h.arbiter.queue.length

/-- The place of a new entry: at the tail of its band, URGENT before RESUME before NORMAL (R84). -/
def joinQueue (q : List WaitEntry) (e : WaitEntry) : List WaitEntry :=
  match e.cls with
  | .urgent => q.takeWhile (·.cls = .urgent) ++ e :: q.dropWhile (·.cls = .urgent)
  | .resume => q.takeWhile (·.cls ≠ .normal) ++ e :: q.dropWhile (·.cls ≠ .normal)
  | .normal => q ++ [e]

/-- An entry joins the queue with its wait timer at WAIT_LIMIT (R84, R85). -/
def Hub.enqueue (h : Hub) (a : Axis) (c : WaitClass) : Hub :=
  { h with arbiter := { h.arbiter with
      queue := joinQueue h.arbiter.queue ⟨a, c, h.params.waitLimit * Config.unitsPerSecond⟩ } }

/-- The class of a queued motion's entry (R83). -/
def MotionClass.waitClass : MotionClass → WaitClass
  | .normal => .normal
  | .urgent => .urgent

/-- An accepted motion queued: its entry joins, the axis is WAITING with its lease at CLAIM_LEASE (R66, R86). -/
def Hub.queueMotion (h : Hub) (a : Axis) (c : MotionClass) : Hub :=
  (h.enqueue a c.waitClass).setRecord a { h.record a with state := .waiting, lease := h.claimLease }

/-- The number of entries ahead of a motion that joins (R84). -/
def Hub.entriesAhead (h : Hub) : MotionClass → Nat
  | .urgent => (h.arbiter.queue.filter (·.cls = .urgent)).length
  | .normal => h.arbiter.queue.length

/-- A MOVING NORMAL axis suspended for an URGENT motion (R88): its enable off and its flow returned, PAUSED with its lease at
CLAIM_LEASE, its last end cause as it stands, its notice posted. -/
def Hub.pause (h : Hub) (a : Axis) : Hub :=
  let h := h.returnFlow a
  let r := h.record a
  (h.setRecord a { r with state := .paused, lease := h.claimLease }).postAxis a r.holder

/-- The axes an URGENT motion may pause, most recently granted first: MOVING NORMAL axes with a DEMAND above 0 (R87, R88). -/
def Hub.pausable (h : Hub) : List Axis :=
  (h.arbiter.grantOrder.filter (fun a => (h.record a).cls = .normal ∧ 0 < h.demand a)).reverse

/-- Of a list of pausable axes, as many as must be paused, in order, before a motion of this demand fits; `freed` is the flow
of those taken so far (R88). -/
def Hub.victims (h : Hub) (need : Nat) : List Axis → Nat → List Axis
  | [], _ => []
  | v :: vs, freed =>
    if need + h.arbiter.inUse ≤ h.params.flowBudget + freed then [] else v :: h.victims need vs (freed + h.demand v)

/-- Pre-emption (R88): the victims paused, their RESUME entries joined oldest grant first, the URGENT motion granted, and the
service run. -/
def Hub.preempt (h : Hub) (a : Axis) : Hub :=
  let vs := h.victims (h.demand a) h.pausable 0
  let h := vs.foldl Hub.pause h
  let h := vs.reverse.foldl (fun h v => h.enqueue v .resume) h
  (h.grant a).service

/-- An accepted motion asks for flow: granted at once, perhaps after pausing others, or queued with the number of entries ahead
of it (R86, R87). -/
def Hub.askFlow (h : Hub) (a : Axis) (c : MotionClass) : Hub × Option Nat :=
  let queued := (h.queueMotion a c, some (h.entriesAhead c))
  match c with
  | .normal => if h.arbiter.queue.isEmpty && h.fits a then (h.grant a, none) else queued
  | .urgent =>
    if h.arbiter.queue.any (·.cls = .urgent) then queued
    else if h.fits a then (h.grant a, none)
    else if h.demand a + h.arbiter.inUse ≤ h.params.flowBudget + (h.pausable.map h.demand).sum then (h.preempt a, none)
    else queued

/-! ### The ring (04 section 4.3, 4.9) -/

/-- A RUN converted to park: a RING that is MOVING, WAITING or PAUSED with target RUN takes TO RING_PARK; nothing else of it
changes (R69). -/
def Hub.convertToPark (h : Hub) : Hub :=
  let r := h.record .ring
  if r.state.inFlight && r.target == .run then h.setRecord .ring { r with target := .to h.params.ringPark } else h

/-- A RING that is MOVING in the RUN kind is stopped for film out, and the service follows (R30, R137). -/
def Hub.stopRingFilmOut (h : Hub) : Hub :=
  if (h.record .ring).state = .moving ∧ (h.record .ring).target = .run then (h.endMotion .ring .filmOut).service else h

/-- A RING that is MOVING, in either kind, is stopped for an unplanned removal, and the service follows (R79). -/
def Hub.stopRingUnplanned (h : Hub) : Hub :=
  if (h.record .ring).state = .moving then (h.endMotion .ring .sensor).service else h

/-- The circular distance of two ring angles: the smaller of the forward and backward distances modulo 720 (R65). -/
def circularDistance (p q : Nat) : Nat :=
  let forward := (q + (Config.ringCounts - p % Config.ringCounts)) % Config.ringCounts
  Nat.min forward ((Config.ringCounts - forward) % Config.ringCounts)

/-! ### Taking an event and taking an item -/

/-- An event's effect on the part; the queue of commands is left alone. -/
def State.event (s : State) (f : Hub → Hub) : Host.Outcome State Fault Refusal := .next { s with hub := f s.hub }

/-- The reply entry of the item taken last (R173). -/
def Hub.answered (h : Hub) (code : Byte) (x : Answer) : Hub := { h with lastEntry := some ⟨code, x⟩ }

/-- An item's effect on the part, with its reply entry built from its outcome and result data (R171, R173). A command of the item's
own row is taken whenever it stands at the front of the queue, also while the handler has a frame in hand, although R171 takes no
item of another port between two items of a frame: the model's choice (log 14). -/
def State.item (s : State) (code : Byte) (f : Hub → Hub × Answer) : Host.Outcome State Fault Refusal :=
  .next { s with hub := (f s.hub).1.answered code (f s.hub).2 }

end Sys2Proof.Machine
end

