-- ==== Sys2Proof/Machine/Layers.lean ====
section
/-! DEFINITION. The layer counter's inputs and requests (07): revolution events, film breaks, net pulses, the net feed and its
timers, FILM_RESET. -/

namespace Sys2Proof.Machine

/-! ### Film layers -/

/-- The film target reached: WRAPPED with BALE_MOVED to all and FILM_DONE to WR and CT, and a RING RUN converted to park, in the
one revolution event (R113, R134, R69). -/
def Hub.filmTargetReached (h : Hub) (b : Bale) : Hub :=
  ((h.advance .table b .wrapped).postTo .filmDone [.wr, .ct]).convertToPark

/-- A ring revolution event at the layer counter: the layers of a WRAPPING table bale rise by the READY dispensers and are
compared with the film target; at any other time nothing is counted (R133, R134). -/
def Hub.revolution (h : Hub) : Hub :=
  match h.tracker.table with
  | some b =>
    match b.stage, b.film with
    | .wrapping, some f =>
      let f' := { f with layers := f.layers + h.counter.readyCount }
      let b' := { b with film := some f' }
      let h' := { h with tracker := { h.tracker with table := some b' } }
      if f'.target ≤ f'.layers then h'.filmTargetReached b' else h'
    | _, _ => h
  | none => h

/-- A count without index (R5): not counted while UNREFERENCED; otherwise the position advances, and the wrap from 719 to 0 is a
revolution event. -/
def Hub.ringCount (h : Hub) : Hub :=
  if !h.sampler.ringReferenced then h
  else if h.sampler.ringPosition + 1 < Config.ringCounts then
    { h with sampler := { h.sampler with ringPosition := h.sampler.ringPosition + 1 } }
  else { h with sampler := { h.sampler with ringPosition := 0 } }.revolution

/-- A count with index (R6): the position becomes 0 and the ring REFERENCED; a revolution event when it was REFERENCED at
360–719. -/
def Hub.ringIndexCount (h : Hub) : Hub :=
  let h' := { h with sampler := { h.sampler with ringReferenced := true, ringPosition := 0 } }
  if h.sampler.ringReferenced && decide (360 ≤ h.sampler.ringPosition) then h'.revolution else h'

def execRingCount (s : State) : Host.Outcome State Fault Refusal := s.event Hub.ringCount

def execRingIndexCount (s : State) : Host.Outcome State Fault Refusal := s.event Hub.ringIndexCount

/-- A break captured into the record of a WRAPPING bale: appended with the layers and the encoder's ring position at the edge,
or BREAKS_OVER when the list already holds 4 entries (R136). -/
def Hub.captureBreak (h : Hub) (d : Dispenser) : Hub :=
  match h.tracker.table with
  | some b =>
    match b.stage, b.film with
    | .wrapping, some f =>
      let b' :=
        if f.breaks.length < Config.breakCapacity then
          { b with film := some { f with breaks := f.breaks ++ [⟨d, f.layers, h.sampler.ringPosition⟩] } }
        else { b with flags := { b.flags with breaksOver := true } }
      { h with tracker := { h.tracker with table := some b' } }
    | _, _ => h
  | none => h

/-- The level of a film-break input recorded. -/
def Hub.setBreakInput (h : Hub) (d : Dispenser) (level : Bool) : Hub :=
  match d with
  | .a => { h with inputs := { h.inputs with breakA := level } }
  | .b => { h with inputs := { h.inputs with breakB := level } }

/-- A film-break edge to active at a READY dispenser: BROKEN, FILM_BREAK to WR and CT, the break captured, and film out when both
are then BROKEN (R135, R137). -/
def Hub.breakDispenser (h : Hub) (d : Dispenser) : Hub :=
  let h := { h with counter := h.counter.setDispenser d .broken }
  let h := (h.postTo .filmBreak [.wr, .ct]).captureBreak d
  if h.counter.readyCount = 0 then h.stopRingFilmOut else h

/-- An edge of a film-break input: to active it breaks a READY dispenser and is ignored by a BROKEN one, to inactive it is
ignored (R135). Every edge commanded is taken as an edge (log 10). -/
def Hub.filmBreakEdge (h : Hub) (d : Dispenser) (active : Bool) : Hub :=
  let h := h.setBreakInput d active
  if active && h.counter.dispenser d == .ready then h.breakDispenser d else h

def execFilmBreakEdge (d : Dispenser) (active : Bool) (s : State) : Host.Outcome State Fault Refusal :=
  s.event (fun h => h.filmBreakEdge d active)

/-- FILM_RESET's result character: bits 0 and 1 A and B BROKEN, bits 2 and 3 their inputs active (11 section 11.3.2). -/
def Hub.filmResetData (h : Hub) : List Byte :=
  u8 (flagBit (h.counter.dispenserA == .broken) 0 + flagBit (h.counter.dispenserB == .broken) 1
    + flagBit h.inputs.breakA 2 + flagBit h.inputs.breakB 3)

/-- FILM_RESET (R138). -/
def filmResetItem (r : Role) (code : Byte) (h : Hub) : Hub × Answer :=
  if r ≠ .wr then (h, .bare .notAllowed)
  else
    match argDispenser code with
    | none => (h, .bare .badValue)
    | some d =>
      let h := { h with counter := h.counter.setDispenser d .ready }
      (h, ⟨.ok, h.filmResetData⟩)

def execFilmReset (r : Role) (code : Byte) (s : State) : Host.Outcome State Fault Refusal :=
  s.item 0x25#8 (filmResetItem r code)

/-! ### Net counting -/

/-- The net target reached (R104, R126): BOUND with BALE_MOVED to all and NET_DONE to CH and CT; both net timers stopped and the
watch OFF; FEED HOLD evaluated again (R117). -/
def Hub.netTargetReached (h : Hub) (b : Bale) : Hub :=
  let h := (h.advance .chamber b .bound).postTo .netDone [.ch, .ct]
  { h with counter := { h.counter with watch := .off, startTimer := none, gapTimer := none } }.evalFeedHold

/-- A pulse of the chamber pulse pickup, counted while the chamber bale is BINDING and the net feed active (R125, R126). -/
def Hub.netPulse (h : Hub) : Hub :=
  match h.tracker.chamber with
  | some b =>
    match b.stage, b.net, h.inputs.netFeed with
    | .binding, some n, true =>
      let n' := { n with pulses := n.pulses + 1 }
      let b' := { b with net := some n' }
      let h' := { h with tracker := { h.tracker with chamber := some b' } }
      if n'.pulses = n'.target then h'.netTargetReached b' else h'
    | _, _, _ => h
  | none => h

def execNetPulse (s : State) : Host.Outcome State Fault Refusal := s.event Hub.netPulse

/-- What an edge of the net feed does by the watch state (R128). -/
def LayerCounter.netFeedEdge (c : LayerCounter) (active : Bool) (gapLimit : Nat) : LayerCounter :=
  match c.watch, active with
  | .startWait, true => { c with watch := .feeding, startTimer := none }
  | .gapWait, true => { c with watch := .feeding, gapTimer := none }
  | .halted, true => { c with watch := .feeding }
  | .feeding, false => { c with watch := .gapWait, gapTimer := some gapLimit }
  | _, _ => c

/-- An edge of the net-feed input (R128): NET_GAP_LIMIT is in units of 0.1 s. -/
def Hub.netFeedEdge (h : Hub) (active : Bool) : Hub :=
  { h with inputs := { h.inputs with netFeed := active },
           counter := h.counter.netFeedEdge active (h.params.netGapLimit * 10) }

def execNetFeedEdge (active : Bool) (s : State) : Host.Outcome State Fault Refusal :=
  s.event (fun h => h.netFeedEdge active)

/-- The watch armed by BIND_START or BIND_RETRY: the gap timer stopped and the start timer started at NET_START_LIMIT; with the
feed already active the start timer stops at once and the watch is FEEDING (R127, R131). -/
def Hub.armNetWatch (h : Hub) : Hub :=
  { h with counter := { h.counter with
      gapTimer := none,
      startTimer := if h.inputs.netFeed then none else some (h.params.netStartLimit * Config.unitsPerSecond),
      watch := if h.inputs.netFeed then .feeding else .startWait } }

/-- A record with its flags changed. -/
def Bale.markFlags (mark : BaleFlags → BaleFlags) (b : Bale) : Bale := { b with flags := mark b.flags }

/-- A net fault reported to the tracker: the flags of the chamber bale changed, NET_FAULT to CH and CT (R105). -/
def Hub.netFault (h : Hub) (mark : BaleFlags → BaleFlags) : Hub :=
  { h with tracker := { h.tracker with chamber := h.tracker.chamber.map (Bale.markFlags mark) } }.postTo .netFault
    [.ch, .ct]

/-- The net start timer runs out, if it runs: HALTED, NET_MISS (R129). -/
def Hub.netStartTimeout (h : Hub) : Hub :=
  match h.counter.startTimer with
  | some _ =>
    { h with counter := { h.counter with watch := .halted, startTimer := none } }.netFault
      (fun f => { f with netMiss := true })
  | none => h

/-- The net gap timer runs out, if it runs: HALTED, NET_SHORT (R130). -/
def Hub.netGapTimeout (h : Hub) : Hub :=
  match h.counter.gapTimer with
  | some _ =>
    { h with counter := { h.counter with watch := .halted, gapTimer := none } }.netFault
      (fun f => { f with netShort := true })
  | none => h

def execNetStartTimeout (s : State) : Host.Outcome State Fault Refusal := s.event Hub.netStartTimeout

def execNetGapTimeout (s : State) : Host.Outcome State Fault Refusal := s.event Hub.netGapTimeout

/-- The layer counter after RESTART: both timers stopped, both dispensers READY, and the watch set by the chamber bale and the
net feed (R132, R140). -/
def Hub.restartCounter (h : Hub) : LayerCounter :=
  { watch := if h.tracker.stageAt .chamber = some .binding then
      (if h.inputs.netFeed then .feeding else .halted) else .off,
    startTimer := none, gapTimer := none, dispenserA := .ready, dispenserB := .ready }

end Sys2Proof.Machine
end

