-- ==== Sys2Proof/Machine/Bales.lean ====
section
/-! DEFINITION. The bale tracker's edges, timers and requests (06). -/

namespace Sys2Proof.Machine

/-! ### Load switches and timers -/

/-- The cradle load switch becomes active (R108): an EJECTING chamber bale moves to an empty CRADLE as CARRIED; otherwise
SENSOR_FAULT to all. -/
def Hub.cradleLoadActive (h : Hub) : Hub :=
  let h := { h with inputs := { h.inputs with cradleLoad := true } }
  match h.tracker.chamber, h.tracker.cradle with
  | some b, none =>
    if b.stage = .ejecting then
      ({ h with tracker := { h.tracker with chamber := none, cradle := some { b with stage := .carried } } }.postAll
        .baleMoved).startStopwatch.evalFeedHold
    else h.postAll .sensorFault
  | _, _ => h.postAll .sensorFault

def execCradleLoadActive (s : State) : Host.Outcome State Fault Refusal := s.event Hub.cradleLoadActive

/-- The cradle load switch becomes inactive (R109): the transit timer starts for a CARRIED bale, or runs on. -/
def Hub.cradleLoadInactive (h : Hub) : Hub :=
  let h := { h with inputs := { h.inputs with cradleLoad := false } }
  match h.tracker.stageAt .cradle, h.tracker.transit with
  | some .carried, none => { h with tracker := { h.tracker with transit := some Config.transitLength } }
  | _, _ => h

def execCradleLoadInactive (s : State) : Host.Outcome State Fault Refusal := s.event Hub.cradleLoadInactive

/-- The table load switch becomes active (R110): the CARRIED bale moves to an empty TABLE as ON_TABLE, and the transit timer and
the stopwatch stop; otherwise SENSOR_FAULT to all. -/
def Hub.tableLoadActive (h : Hub) : Hub :=
  let h := { h with inputs := { h.inputs with tableLoad := true } }
  match h.tracker.cradle, h.tracker.table with
  | some b, none =>
    if b.stage = .carried then
      { h with tracker := { h.tracker with
          cradle := none, table := some { b with stage := .onTable }, transit := none, stopwatch := none } }.postAll
        .baleMoved
    else h.postAll .sensorFault
  | _, _ => h.postAll .sensorFault

def execTableLoadActive (s : State) : Host.Outcome State Fault Refusal := s.event Hub.tableLoadActive

/-- The table load switch becomes inactive (R114): a DROPPING bale is logged DROPPED; an ON_TABLE, WRAPPING or WRAPPED bale is
logged UNPLANNED with SENSOR_FAULT to all and a MOVING ring stopped (R79); an empty table ignores the edge. -/
def Hub.tableLoadInactive (h : Hub) : Hub :=
  let h := { h with inputs := { h.inputs with tableLoad := false } }
  match h.tracker.table with
  | some b =>
    match b.stage with
    | .dropping => h.logBale .table b true
    | .onTable | .wrapping | .wrapped => ((h.logBale .table b false).postAll .sensorFault).stopRingUnplanned
    | .forming | .binding | .bound | .ejecting | .carried | .dropped => h
  | none => h

def execTableLoadInactive (s : State) : Host.Outcome State Fault Refusal := s.event Hub.tableLoadInactive

/-- The transit timer runs out, if it runs: the CARRIED record is logged UNPLANNED with SENSOR_FAULT to all, and the stopwatch
stops (R111). -/
def Hub.transitTimeout (h : Hub) : Hub :=
  match h.tracker.transit with
  | some _ =>
    let h := { h with tracker := { h.tracker with transit := none } }
    match h.tracker.cradle with
    | some b =>
      ({ h with tracker := { h.tracker with stopwatch := none } }.logBale .cradle b false).postAll .sensorFault
    | none => h
  | none => h

def execTransitTimeout (s : State) : Host.Outcome State Fault Refusal := s.event Hub.transitTimeout

/-- The cradle wait of a record raised to at least `n` (log 4). -/
def Bale.waitAtLeast (n : Nat) (b : Bale) : Bale := { b with cradleWait := some (Nat.max (b.cradleWait.getD 0) n) }

/-- The stopwatch reaches its limit, if it runs (R116): its count is then at least the limit (log 4), and an unflagged bale gains
TABLE_LATE. -/
def Hub.tableLate (h : Hub) : Hub :=
  match h.tracker.stopwatch with
  | some w => { h with tracker := { h.tracker with cradle := h.tracker.cradle.map (Bale.waitAtLeast w.limit) } }.lateCheck
  | none => h

def execTableLate (s : State) : Host.Outcome State Fault Refusal := s.event Hub.tableLate

/-- An edge of the pre-chamber full input: FEED HOLD evaluated again (R117). -/
def Hub.prechamberFullEdge (h : Hub) (active : Bool) : Hub :=
  { h with inputs := { h.inputs with prechamberFull := active } }.evalFeedHold

def execPrechamberFullEdge (active : Bool) (s : State) : Host.Outcome State Fault Refusal :=
  s.event (fun h => h.prechamberFullEdge active)

/-! ### Requests -/

/-- A GATE refusal that names the bale at a place by number and stage, or carries no data when the place is empty (R102, R103,
R112, R119). -/
def Hub.gateAnswer (h : Hub) (p : Place) : Hub × Answer :=
  (h, ⟨.gate, match h.tracker.at p with | some b => u16 b.number ++ u8 b.stage.code | none => []⟩)

/-- BALE_START (R102). -/
def baleStartItem (r : Role) (h : Hub) : Hub × Answer :=
  if r ≠ .ch then (h, .bare .notAllowed)
  else if h.tracker.chamber.isSome then h.gateAnswer .chamber
  else (h.createBale .chamber .forming false, ⟨.ok, u16 h.tracker.assignedNumber⟩)

def execBaleStart (r : Role) (s : State) : Host.Outcome State Fault Refusal := s.item 0x21#8 (baleStartItem r)

/-- A FORMING bale bound: its net part made present with NET_TARGET copied, BINDING, the net watch armed, FEED HOLD evaluated
again (R103, R117, R127). -/
def Hub.startBinding (h : Hub) (b : Bale) : Hub :=
  ((h.advance .chamber { b with net := some ⟨h.params.netTarget, 0⟩ } .binding).armNetWatch).evalFeedHold

/-- BIND_START (R103). -/
def bindStartItem (r : Role) (h : Hub) : Hub × Answer :=
  if r ≠ .ch then (h, .bare .notAllowed)
  else
    match h.tracker.chamber with
    | some b =>
      if b.stage = .forming then (h.startBinding b, ⟨.ok, u16 b.number ++ u8 h.params.netTarget⟩)
      else h.gateAnswer .chamber
    | none => h.gateAnswer .chamber

def execBindStart (r : Role) (s : State) : Host.Outcome State Fault Refusal := s.item 0x22#8 (bindStartItem r)

/-- BIND_RETRY (R106, R131); its GATE carries no data (R179). -/
def bindRetryItem (r : Role) (h : Hub) : Hub × Answer :=
  if r ≠ .ch then (h, .bare .notAllowed)
  else
    match h.tracker.chamber with
    | some b =>
      if b.stage = .binding then
        (h.armNetWatch, ⟨.ok, u16 b.number ++ u8 (match b.net with | some n => n.pulses | none => 0)⟩)
      else (h, .bare .gate)
    | none => (h, .bare .gate)

def execBindRetry (r : Role) (s : State) : Host.Outcome State Fault Refusal := s.item 0x23#8 (bindRetryItem r)

/-- An ON_TABLE bale wrapped: its film part made present with FILM_TARGET copied, no layers and no breaks, WRAPPING (R112). -/
def Hub.startWrapping (h : Hub) (b : Bale) : Hub :=
  h.advance .table { b with film := some ⟨h.params.filmTarget, 0, []⟩ } .wrapping

/-- WRAP_START (R112). -/
def wrapStartItem (r : Role) (h : Hub) : Hub × Answer :=
  if r ≠ .wr then (h, .bare .notAllowed)
  else
    match h.tracker.table with
    | some b =>
      if b.stage = .onTable then (h.startWrapping b, ⟨.ok, u16 b.number ++ u8 h.params.filmTarget⟩)
      else h.gateAnswer .table
    | none => h.gateAnswer .table

def execWrapStart (r : Role) (s : State) : Host.Outcome State Fault Refusal := s.item 0x24#8 (wrapStartItem r)

/-- BALE_NOTE (R118): CH notes the moisture of the chamber bale, WR the weight of the table bale. -/
def baleNoteItem (r : Role) (value : Half) (h : Hub) : Hub × Answer :=
  let v := value.toNat
  match r with
  | .ct => (h, .bare .notAllowed)
  | .ch =>
    if 200 < v then (h, .bare .badValue)
    else
      match h.tracker.chamber with
      | some b =>
        ({ h with tracker := { h.tracker with chamber := some { b with moisture := some v } } }, ⟨.ok, u16 b.number⟩)
      | none => (h, .bare .gate)
  | .wr =>
    if 4000 < v then (h, .bare .badValue)
    else
      match h.tracker.table with
      | some b =>
        ({ h with tracker := { h.tracker with table := some { b with weight := some v } } }, ⟨.ok, u16 b.number⟩)
      | none => (h, .bare .gate)

def execBaleNote (r : Role) (value : Half) (s : State) : Host.Outcome State Fault Refusal :=
  s.item 0x26#8 (baleNoteItem r value)

/-- The stages that may be declared at a place (R119). -/
def declarable : Place → Stage → Bool
  | .chamber, .forming | .chamber, .bound | .chamber, .ejecting => true
  | .cradle, .carried => true
  | .table, .onTable | .table, .wrapped | .table, .dropping => true
  | _, _ => false

/-- A record declared at an empty place: created with RECOVERED, the stopwatch started where its condition now holds, FEED HOLD
evaluated again for a chamber record (R115, R117, R119). -/
def Hub.declareBale (h : Hub) (p : Place) (g : Stage) : Hub :=
  let h := h.createBale p g true
  match p with
  | .chamber => h.evalFeedHold
  | .cradle | .table => h.startStopwatch

/-- BALE_DECLARE (R119). -/
def baleDeclareItem (r : Role) (place stage : Byte) (h : Hub) : Hub × Answer :=
  if r ≠ .ct then (h, .bare .notAllowed)
  else if h.control.mode ≠ .setup then (h, .bare .wrongMode)
  else
    match argPlace place, argStage stage with
    | some p, some g =>
      if !declarable p g then (h, .bare .badValue)
      else if (h.tracker.at p).isSome then h.gateAnswer p
      else (h.declareBale p g, ⟨.ok, u16 h.tracker.assignedNumber⟩)
    | _, _ => (h, .bare .badValue)

def execBaleDeclare (r : Role) (place stage : Byte) (s : State) : Host.Outcome State Fault Refusal :=
  s.item 0x27#8 (baleDeclareItem r place stage)

/-- BALE_READ's result (R120, 11 section 11.3.2). -/
def Hub.baleData (h : Hub) : List Byte :=
  let t := h.tracker
  u8 t.queue.length ++ t.queue.flatMap (fun p => p.2.chars (some p.1)) ++ u8 t.log.length ++ u16 t.nextNumber
    ++ (match t.transit with | some left => u8 1 ++ u16 left | none => u8 0 ++ u16 0)
    ++ bool8 t.feedHold
    ++ u8 (flagBit h.inputs.prechamberFull 0 + flagBit h.inputs.cradleLoad 1 + flagBit h.inputs.tableLoad 2)

/-- BALE_READ (R120). -/
def baleReadItem (_r : Role) (h : Hub) : Hub × Answer := (h, ⟨.ok, h.baleData⟩)

def execBaleRead (r : Role) (s : State) : Host.Outcome State Fault Refusal := s.item 0x28#8 (baleReadItem r)

/-- LOG_READ's result: the log count and the 4 oldest records, or all of them (R122). -/
def Hub.logData (h : Hub) : List Byte :=
  u8 h.tracker.log.length ++ (h.tracker.log.take 4).flatMap (Bale.chars none)

/-- LOG_READ (R122). -/
def logReadItem (r : Role) (h : Hub) : Hub × Answer :=
  if r ≠ .ct then (h, .bare .notAllowed) else (h, ⟨.ok, h.logData⟩)

def execLogRead (r : Role) (s : State) : Host.Outcome State Fault Refusal := s.item 0x29#8 (logReadItem r)

/-- LOG_DROP (R123). -/
def logDropItem (r : Role) (count : Byte) (h : Hub) : Hub × Answer :=
  let n := count.toNat
  if r ≠ .ct then (h, .bare .notAllowed)
  else if n < 1 ∨ 4 < n ∨ h.tracker.log.length < n then (h, .bare .badValue)
  else
    let log := h.tracker.log.drop n
    ({ h with tracker := { h.tracker with log := log } }, ⟨.ok, u8 log.length⟩)

def execLogDrop (r : Role) (count : Byte) (s : State) : Host.Outcome State Fault Refusal :=
  s.item 0x2A#8 (logDropItem r count)

end Sys2Proof.Machine
end

