-- ==== Sys2Proof/Machine/Settings.lean ====
section
/-! DEFINITION. The parameter store's and the zone map's requests, and the field clock's second (09, 02). -/

namespace Sys2Proof.Machine

/-! ### Parameters -/

/-- The parameters by name (R151). -/
inductive Param where
  | flowBudget | demand (a : Axis) | urgentOk (a : Axis) | claimants (a : Axis) | tolerance (a : Axis) | ringPark | slopeLimit
  | claimLease | waitLimit | netTarget | netStartLimit | netGapLimit | filmTarget | tableLateLimit | fieldClock | nextBale
  deriving DecidableEq, Repr

/-- The parameter at an index; indexes 36–255 hold none (R151). -/
def Param.ofIndex (n : Nat) : Option Param :=
  if n = 0 then some .flowBudget
  else if n ≤ 6 then (Axis.ofNumber (n - 1)).map .demand
  else if n ≤ 12 then (Axis.ofNumber (n - 7)).map .urgentOk
  else if n ≤ 18 then (Axis.ofNumber (n - 13)).map .claimants
  else if n ≤ 24 then (Axis.ofNumber (n - 19)).map .tolerance
  else
    match n with
    | 25 => some .ringPark
    | 26 => some .slopeLimit
    | 27 => some .claimLease
    | 28 => some .waitLimit
    | 29 => some .netTarget
    | 30 => some .netStartLimit
    | 31 => some .netGapLimit
    | 32 => some .filmTarget
    | 33 => some .tableLateLimit
    | 34 => some .fieldClock
    | 35 => some .nextBale
    | _ => none

/-- The value of a parameter as a reply codes it; FIELD_CLOCK and NEXT_BALE are read from their owners (R151, R153). -/
def Hub.paramValue (h : Hub) : Param → Quad
  | .flowBudget => BitVec.ofNat 32 h.params.flowBudget
  | .demand a => BitVec.ofNat 32 (h.params.demand.get a)
  | .urgentOk a => BitVec.ofNat 32 (if h.params.urgentOk.get a then 1 else 0)
  | .claimants a => (h.params.claimants.get a).setWidth 32
  | .tolerance a => BitVec.ofNat 32 (h.params.tolerance.get a)
  | .ringPark => BitVec.ofNat 32 h.params.ringPark
  | .slopeLimit => BitVec.ofNat 32 h.params.slopeLimit
  | .claimLease => BitVec.ofNat 32 h.params.claimLease
  | .waitLimit => BitVec.ofNat 32 h.params.waitLimit
  | .netTarget => BitVec.ofNat 32 h.params.netTarget
  | .netStartLimit => BitVec.ofNat 32 h.params.netStartLimit
  | .netGapLimit => BitVec.ofNat 32 h.params.netGapLimit
  | .filmTarget => BitVec.ofNat 32 h.params.filmTarget
  | .tableLateLimit => BitVec.ofNat 32 h.params.tableLateLimit
  | .fieldClock => h.clock.seconds
  | .nextBale => BitVec.ofNat 32 h.tracker.nextNumber

/-- The least and greatest value a parameter takes; for CLAIMANTS any three bits, for URGENT_OK no or yes (R151, R154). -/
def Param.range : Param → Nat × Nat
  | .flowBudget => (0, 250)
  | .demand _ => (0, 100)
  | .urgentOk _ => (0, 1)
  | .claimants _ => (0, 7)
  | .tolerance _ => (0, 63)
  | .ringPark => (0, 719)
  | .slopeLimit => (0, 250)
  | .claimLease => (1, 120)
  | .waitLimit => (1, 60)
  | .netTarget => (4, 255)
  | .netStartLimit => (1, 20)
  | .netGapLimit => (2, 50)
  | .filmTarget => (2, 60)
  | .tableLateLimit => (10, 600)
  | .fieldClock => (0, 4294967295)
  | .nextBale => (1, 65535)

/-- A value lies in the range of a parameter. -/
def Param.inRange (p : Param) (v : Nat) : Bool := decide (p.range.1 ≤ v ∧ v ≤ p.range.2)

/-- A parameter takes a value; FIELD_CLOCK and NEXT_BALE are written by nobody (R151). -/
def Params.write (q : Params) (p : Param) (v : Nat) : Params :=
  match p with
  | .flowBudget => { q with flowBudget := v }
  | .demand a => { q with demand := q.demand.set a v }
  | .urgentOk a => { q with urgentOk := q.urgentOk.set a (v == 1) }
  | .claimants a => { q with claimants := q.claimants.set a (BitVec.ofNat 3 v) }
  | .tolerance a => { q with tolerance := q.tolerance.set a v }
  | .ringPark => { q with ringPark := v }
  | .slopeLimit => { q with slopeLimit := v }
  | .claimLease => { q with claimLease := v }
  | .waitLimit => { q with waitLimit := v }
  | .netTarget => { q with netTarget := v }
  | .netStartLimit => { q with netStartLimit := v }
  | .netGapLimit => { q with netGapLimit := v }
  | .filmTarget => { q with filmTarget := v }
  | .tableLateLimit => { q with tableLateLimit := v }
  | .fieldClock | .nextBale => q

/-- The access classes (R152). -/
inductive Access where
  | writable | readOnly | gated | void
  deriving DecidableEq, Repr

/-- The class of a parameter for a role, from its writer and mode columns (R151, R152). -/
def Param.access (p : Param) (r : Role) : Access :=
  match p with
  | .fieldClock | .nextBale => .readOnly
  | .flowBudget | .demand _ | .urgentOk _ | .claimants _ | .tolerance _ | .ringPark | .slopeLimit =>
    if r = .ct then .gated else .readOnly
  | .claimLease | .waitLimit | .tableLateLimit => if r = .ct then .writable else .readOnly
  | .netTarget | .netStartLimit | .netGapLimit => if r = .wr then .readOnly else .writable
  | .filmTarget => if r = .ch then .readOnly else .writable

/-- The access class of an index for a role: VOID where it holds no parameter (R152). -/
def accessClass (r : Role) (index : Byte) : Access :=
  match Param.ofIndex index.toNat with
  | none => .void
  | some p => p.access r

/-- The index and the value it holds: the data of PARAM_GET and PARAM_SET; a VOID index returns 0 (R153, R154; log 18). -/
def Hub.paramData (h : Hub) (index : Byte) : List Byte :=
  index :: u32 (match Param.ofIndex index.toNat with | some p => h.paramValue p | none => 0#32)

/-- PARAM_GET (R153). -/
def paramGetItem (_r : Role) (index : Byte) (h : Hub) : Hub × Answer := (h, ⟨.ok, h.paramData index⟩)

def execParamGet (r : Role) (index : Byte) (s : State) : Host.Outcome State Fault Refusal :=
  s.item 0x31#8 (paramGetItem r index)

/-- PARAM_SET (R154). -/
def paramSetItem (r : Role) (index : Byte) (value : Half) (h : Hub) : Hub × Answer :=
  match Param.ofIndex index.toNat with
  | none => (h, ⟨.ok, h.paramData index⟩)
  | some p =>
    if p.access r = .readOnly then (h, .bare .notAllowed)
    else if p.access r = .gated ∧ h.control.mode ≠ .setup then (h, ⟨.wrongMode, h.paramData index⟩)
    else if !p.inRange value.toNat then (h, .bare .badValue)
    else
      let h := { h with params := h.params.write p value.toNat }
      (h, ⟨.ok, h.paramData index⟩)

def execParamSet (r : Role) (index : Byte) (value : Half) (s : State) : Host.Outcome State Fault Refusal :=
  s.item 0x32#8 (paramSetItem r index value)

/-! ### The zone map -/

/-- The characters of an entry: its type and its five allow fields (R36). -/
def ZoneEntry.chars (e : ZoneEntry) : List Byte :=
  u8 e.kind.code ++ u8 e.allow.a0.code ++ u8 e.allow.a1.code ++ u8 e.allow.a2.code ++ u8 e.allow.a3.code
    ++ u8 e.allow.a4.code

/-- ZONE_GET: selector 9 is BOUNDS, 0–8 an entry (R36, R178). -/
def zoneGetItem (_r : Role) (axis selector : Byte) (h : Hub) : Hub × Answer :=
  match argAxis axis with
  | none => (h, .bare .badValue)
  | some a =>
    if selector.toNat = 9 then (h, ⟨.ok, axis :: selector :: ((h.map.get a).bounds.toList.flatMap u16)⟩)
    else
      match Zone.ofEntry selector.toNat with
      | some z => (h, ⟨.ok, axis :: selector :: ((h.map.get a).entries.get z).chars⟩)
      | none => (h, .bare .badValue)

def execZoneGet (r : Role) (axis selector : Byte) (s : State) : Host.Outcome State Fault Refusal :=
  s.item 0x33#8 (zoneGetItem r axis selector)

/-- The greatest boundary value a ZONE_SET may write: 4095 for a linear axis, 719 for RING (R37). -/
def boundMax (a : Axis) : Nat := if a = .ring then 719 else 4095

/-- An axis's map replaced, which clears the map-checked flag (R39). -/
def Hub.writeMap (h : Hub) (a : Axis) (m : AxisMap) : Hub :=
  { h with map := h.map.set a m, control := { h.control with mapChecked := false } }

/-- ZONE_SET BOUNDS (R37, R39). -/
def zoneSetBoundsItem (r : Role) (axis : Byte) (args : BoundArgs) (h : Hub) : Hub × Answer :=
  if r ≠ .ct then (h, .bare .notAllowed)
  else if h.control.mode ≠ .setup then (h, .bare .wrongMode)
  else
    match argAxis axis with
    | none => (h, .bare .badValue)
    | some a =>
      if (argBounds args).toList.all (· ≤ boundMax a) then
        (h.writeMap a { h.map.get a with bounds := argBounds args }, .bare .ok)
      else (h, .bare .badValue)

def execZoneSetBounds (r : Role) (axis : Byte) (args : BoundArgs) (s : State) : Host.Outcome State Fault Refusal :=
  s.item 0x34#8 (zoneSetBoundsItem r axis args)

/-- ZONE_SET ENTRY (R38, R39). -/
def zoneSetEntryItem (r : Role) (axis entry kind : Byte) (allow : AllowArgs) (h : Hub) : Hub × Answer :=
  if r ≠ .ct then (h, .bare .notAllowed)
  else if h.control.mode ≠ .setup then (h, .bare .wrongMode)
  else
    match argAxis axis, Zone.ofEntry entry.toNat, argZoneType kind, argAllowFields allow with
    | some a, some z, some k, some f =>
      let m := h.map.get a
      (h.writeMap a { m with entries := m.entries.set z ⟨k, f⟩ }, .bare .ok)
    | _, _, _, _ => (h, .bare .badValue)

def execZoneSetEntry (r : Role) (axis entry kind : Byte) (allow : AllowArgs) (s : State) :
    Host.Outcome State Fault Refusal :=
  s.item 0x35#8 (zoneSetEntryItem r axis entry kind allow)

/-- A list strictly ascending. -/
def ascending : List Nat → Bool
  | x :: y :: rest => decide (x < y) && ascending (y :: rest)
  | _ => true

/-- The map check of one axis: boundaries strictly ascending, in 1–4094, or 1–719 for RING (R40). -/
def mapAxisOk (a : Axis) (b : Bounds) : Bool :=
  ascending b.toList && b.toList.all (fun v => decide (1 ≤ v ∧ v ≤ if a = .ring then 719 else 4094))

/-- The lowest-numbered axis that fails the map check (R40). -/
def Hub.mapFailure (h : Hub) : Option Axis := Axis.list.find? (fun a => !mapAxisOk a (h.map.get a).bounds)

/-! ### The field clock -/

/-- A full second: the count rises by one, from 4294967295 to 0 (R156). -/
def Hub.fieldClockTick (h : Hub) : Hub := { h with clock := ⟨h.clock.seconds + 1#32, 0⟩ }

def execFieldClockTick (s : State) : Host.Outcome State Fault Refusal := s.event Hub.fieldClockTick

end Sys2Proof.Machine
end

