-- ==== Sys2Proof/Machine/Modes.lean ====
section
/-! DEFINITION. The mode controller (09): power-on, the stop input, MODE_SET, CLEAR_STOP, RESTART and its effect, STATUS. -/

namespace Sys2Proof.Machine

/-! ### The stop chain and power-on -/

/-- The stop input becomes active (R160): latch set, STOPPED, the claims dropped when the mode was RUN, STOP_LATCHED to all. -/
def Hub.stopInputActive (h : Hub) : Hub :=
  let h := { h with inputs := { h.inputs with stop := true } }
  let h := if h.control.mode = .run then h.dropAllClaims else h
  { h with control := { h.control with mode := .stopped, stopLatch := true } }.postAll .stopLatched

/-- The stop input becomes inactive: the level is recorded and nothing else changes (R160). -/
def Hub.stopInputInactive (h : Hub) : Hub := { h with inputs := { h.inputs with stop := false } }

def execStopInputActive (s : State) : Host.Outcome State Fault Refusal := s.event Hub.stopInputActive

def execStopInputInactive (s : State) : Host.Outcome State Fault Refusal := s.event Hub.stopInputInactive

/-- Power-on with the digital inputs at these levels, taken without an edge (R186); a stop input found active is taken as becoming
active (R157). -/
def powerOnHub (levels : Levels) : Hub :=
  let h := { Hub.reset with inputs := levels }
  if levels.stop then h.stopInputActive else h

def execPowerOn (levels : Levels) (s : State) : Host.Outcome State Fault Refusal := s.event (fun _ => powerOnHub levels)

/-! ### Mode requests -/

/-- MODE_SET's data: the mode as the item left it, and for MAP_INVALID the failing axis (R158). -/
def Hub.modeAnswer (h : Hub) (v : Verdict) (more : List Byte) : Hub × Answer := (h, ⟨v, u8 h.control.mode.code ++ more⟩)

/-- The hub with the mode replaced. -/
def Hub.setMode (h : Hub) (m : Mode) : Hub := { h with control := { h.control with mode := m } }

/-- MODE_SET RUN in SETUP: the map check, then RUN with the flag set, or MAP_INVALID (R40, R158). -/
def Hub.enterRun (h : Hub) : Hub × Answer :=
  match h.mapFailure with
  | some a => h.modeAnswer .mapInvalid (u8 a.number)
  | none => { h with control := { h.control with mapChecked := true, mode := .run } }.modeAnswer .ok []

/-- MODE_SET (R158, R159). -/
def modeSetItem (r : Role) (mode : Byte) (h : Hub) : Hub × Answer :=
  if r ≠ .ct then (h, .bare .notAllowed)
  else
    match argMode mode with
    | none => (h, .bare .badValue)
    | some m =>
      if h.control.restartPending then h.modeAnswer .wrongMode []
      else
        match h.control.mode, m with
        | .stopped, _ => h.modeAnswer .wrongMode []
        | .setup, .run => h.enterRun
        | .run, .setup => (h.dropAllClaims.setMode .setup).modeAnswer .ok []
        | .setup, _ | .run, _ => h.modeAnswer .ok []

def execModeSet (r : Role) (mode : Byte) (s : State) : Host.Outcome State Fault Refusal :=
  s.item 0x41#8 (modeSetItem r mode)

/-- CLEAR_STOP's data: the mode and the level of the stop input (R162). -/
def Hub.clearAnswer (h : Hub) (v : Verdict) : Hub × Answer := (h, ⟨v, u8 h.control.mode.code ++ bool8 h.inputs.stop⟩)

/-- CLEAR_STOP (R162). -/
def clearStopItem (r : Role) (h : Hub) : Hub × Answer :=
  if r ≠ .ct then (h, .bare .notAllowed)
  else if h.control.restartPending then h.clearAnswer .wrongMode
  else if h.control.mode ≠ .stopped then h.clearAnswer .ok
  else if h.inputs.stop then h.clearAnswer .wrongMode
  else { h with control := { h.control with mode := .setup, stopLatch := false } }.clearAnswer .ok

def execClearStop (r : Role) (s : State) : Host.Outcome State Fault Refusal := s.item 0x42#8 (clearStopItem r)

/-- RESTART (R163): accepted in SETUP and STOPPED, where it becomes pending; the data is the last reset kind and the mode. -/
def restartItem (r : Role) (h : Hub) : Hub × Answer :=
  if r ≠ .ct then (h, .bare .notAllowed)
  else if h.control.mode = .run then (h, .bare .wrongMode)
  else
    ({ h with control := { h.control with restartPending := true } },
      ⟨.ok, u8 h.control.lastReset.code ++ u8 h.control.mode.code⟩)

def execRestart (r : Role) (s : State) : Host.Outcome State Fault Refusal := s.item 0x43#8 (restartItem r)

/-- STATUS's data (R165). -/
def Hub.statusData (h : Hub) : List Byte :=
  u8 h.control.mode.code ++ bool8 h.control.stopLatch ++ bool8 h.inputs.stop ++ bool8 h.control.mapChecked
    ++ u8 h.control.lastReset.code ++ u8 h.arbiter.inUse ++ u32 h.clock.seconds

/-- STATUS (R165). -/
def statusItem (_r : Role) (h : Hub) : Hub × Answer := (h, ⟨.ok, h.statusData⟩)

def execStatus (r : Role) (s : State) : Host.Outcome State Fault Refusal := s.item 0x44#8 (statusItem r)

/-! ### The effect of a restart -/

/-- A port when a restart takes effect: a frame in assembly is discarded, a held frame and a reply being sent are kept (R177). -/
def Port.restarted (p : Port) : Port :=
  match p.receiver with
  | .collecting _ _ => { p with receiver := .waitMark }
  | .waitMark | .holding _ => p

/-- The sampler when a restart takes effect: the ring UNREFERENCED with position 0, which AXIS_READ reports at once, and the next
sample the first after it; the linear positions, every validity and zone, the slope and its timer are kept (R4, R8, R17, R164,
R181; log 9). -/
def Sampler.restarted (s : Sampler) : Sampler :=
  { s with
    ringReferenced := false, ringPosition := 0, fresh := true,
    sense := s.sense.set .ring { s.sense.get .ring with position := 0 } }

/-- What a restart resets and keeps (R164). A frame of port A or B that the handler has in hand stays there, and its further items
are taken after the restart: the model's choice (log 22). -/
def Hub.restarted (h : Hub) : Hub :=
  { h with
    notices := .all .reset, claims := .reset, arbiter := .reset, sampler := h.sampler.restarted,
    counter := h.restartCounter, tracker := { h.tracker with transit := none, stopwatch := none },
    ports := ⟨h.ports.ch.restarted, h.ports.wr.restarted, h.ports.ct.restarted⟩,
    control := { h.control with
      mode := if h.inputs.stop then .stopped else .setup, stopLatch := h.inputs.stop, lastReset := .restart,
      restartPending := false } }

end Sys2Proof.Machine
end

