-- ==== Sys2Proof/Machine/Axes.lean ====
section
/-! DEFINITION. The claim table's requests and timers (03): CLAIM, RELEASE, HANDOVER, REFRESH, lease expiry, wait timeout, and
the reads AXIS_READ and FLOW_READ. -/

namespace Sys2Proof.Machine

/-- A role is in the claimant set of an axis (R41). -/
def Hub.isClaimant (h : Hub) (a : Axis) (r : Role) : Bool := (h.params.claimants.get a).getLsbD r.number

/-- The item of this role meets the LATE condition: the axis is IDLE, the role its last holder and its last end cause EXPIRED
(R55). A claim ends the condition by leaving IDLE (R56). -/
def AxisRecord.lateFor (x : AxisRecord) (r : Role) : Bool :=
  x.state == .idle && x.lastHolder == some r && x.lastEnd == .expired

/-- An outcome with the state, holder and lease of the axis as the item left them (R59). -/
def Hub.claimAnswer (h : Hub) (a : Axis) (v : Verdict) : Hub × Answer := (h, ⟨v, (h.record a).claimData⟩)

/-- CLAIM (R42). -/
def claimItem (r : Role) (axis : Byte) (h : Hub) : Hub × Answer :=
  match argAxis axis with
  | none => (h, .bare .badValue)
  | some a =>
    if h.control.mode ≠ .run then h.claimAnswer a .wrongMode
    else if !h.isClaimant a r then h.claimAnswer a .notAllowed
    else if (h.record a).state = .idle then
      (h.setRecord a { h.record a with state := .claimed, holder := some r, lease := h.claimLease }).claimAnswer a .ok
    else if (h.record a).holder = some r then (h.renewLease a).claimAnswer a .ok
    else h.claimAnswer a .busy

def execClaim (r : Role) (axis : Byte) (s : State) : Host.Outcome State Fault Refusal :=
  s.item 0x11#8 (claimItem r axis)

/-- A motion or wait ended and the claim dropped; a service follows when flow was returned or an entry removed (R45, R51 to
R53). -/
def Hub.dropAndServe (h : Hub) (a : Axis) (cause : EndCause) : Hub :=
  if (h.record a).state.inFlight then (h.dropClaim a cause).service else h.dropClaim a cause

/-- RELEASE (R44, R45). -/
def releaseItem (r : Role) (axis : Byte) (h : Hub) : Hub × Answer :=
  match argAxis axis with
  | none => (h, .bare .badValue)
  | some a =>
    if (h.record a).lateFor r then h.claimAnswer a .late
    else if (h.record a).holder ≠ some r then h.claimAnswer a .notHolder
    else (h.dropAndServe a .released).claimAnswer a .ok

def execRelease (r : Role) (axis : Byte) (s : State) : Host.Outcome State Fault Refusal :=
  s.item 0x12#8 (releaseItem r axis)

/-- HANDOVER (R46, R47). -/
def handoverItem (r : Role) (axis recipient : Byte) (h : Hub) : Hub × Answer :=
  match argAxis axis, argRole recipient with
  | some a, some p =>
    if (h.record a).holder ≠ some r then h.claimAnswer a .notHolder
    else if p = r then h.claimAnswer a .ok
    else if (h.record a).state.inFlight then h.claimAnswer a .busy
    else if !h.isClaimant a p then h.claimAnswer a .notAllowed
    else
      ((h.setRecord a { h.record a with holder := some p, lease := h.claimLease }).postAxis a (some p)).claimAnswer a .ok
  | _, _ => (h, .bare .badValue)

def execHandover (r : Role) (axis recipient : Byte) (s : State) : Host.Outcome State Fault Refusal :=
  s.item 0x13#8 (handoverItem r axis recipient)

/-- REFRESH (R48). -/
def refreshItem (r : Role) (axis : Byte) (h : Hub) : Hub × Answer :=
  match argAxis axis with
  | none => (h, .bare .badValue)
  | some a =>
    if (h.record a).lateFor r then h.claimAnswer a .late
    else if (h.record a).holder ≠ some r then h.claimAnswer a .notHolder
    else (h.renewLease a).claimAnswer a .ok

def execRefresh (r : Role) (axis : Byte) (s : State) : Host.Outcome State Fault Refusal :=
  s.item 0x14#8 (refreshItem r axis)

/-- The lease of an axis runs out (R51 to R53); an IDLE axis has no lease running. -/
def Hub.leaseExpiry (h : Hub) (a : Axis) : Hub :=
  if (h.record a).state = .idle then h else h.dropAndServe a .expired

def execLeaseExpiry (a : Axis) (s : State) : Host.Outcome State Fault Refusal := s.event (fun h => h.leaseExpiry a)

/-- An axis has an entry in the wait queue. -/
def Hub.hasEntry (h : Hub) (a : Axis) : Bool := h.arbiter.queue.any (fun e => e.axis = a)

/-- The wait timer of an axis's entry runs out (R94); an axis without an entry has no such timer. -/
def Hub.waitTimeout (h : Hub) (a : Axis) : Hub :=
  if h.hasEntry a then ((h.endMotion a .waitTimeout).dequeue a).service else h

def execWaitTimeout (a : Axis) (s : State) : Host.Outcome State Fault Refusal := s.event (fun h => h.waitTimeout a)

/-- The 21 characters of the axis record reply (R181). The ring reference state is the encoder's present one, the slope that of
the latest sample (R18; log 9). -/
def Hub.axisData (h : Hub) (a : Axis) : List Byte :=
  let r := h.record a
  let s := h.sense a
  u8 a.number ++ u8 r.state.code ++ u8 (holderCode r.holder) ++ u8 (holderCode r.lastHolder) ++ u8 r.direction.code
    ++ u16 r.target.code ++ u8 r.cls.code ++ u8 r.holdTime ++ u16 r.lease ++ u8 r.lastEnd.code ++ u8 r.flow
    ++ u16 s.position ++ bool8 s.valid ++ u8 s.zone.code
    ++ bool8 (a == .ring && h.sampler.ringReferenced)
    ++ bool8 (a == .tilt && h.sampler.sampledSlopeValid)
    ++ s16 (if a = .tilt then h.sampler.sampledSlope else 0)

/-- AXIS_READ (R18). -/
def axisReadItem (_r : Role) (axis : Byte) (h : Hub) : Hub × Answer :=
  match argAxis axis with
  | none => (h, .bare .badValue)
  | some a => (h, ⟨.ok, h.axisData a⟩)

def execAxisRead (r : Role) (axis : Byte) (s : State) : Host.Outcome State Fault Refusal :=
  s.item 0x18#8 (axisReadItem r axis)

/-- FLOW_READ's result: budget, flow in use, the MOVING axes in grant order and the wait queue from its head (R97). -/
def Hub.flowData (h : Hub) : List Byte :=
  u8 h.params.flowBudget ++ u8 h.arbiter.inUse ++ u8 h.arbiter.grantOrder.length
    ++ h.arbiter.grantOrder.flatMap (fun a => u8 a.number ++ u8 (h.record a).cls.code ++ u8 (h.demand a))
    ++ u8 h.arbiter.queue.length
    ++ h.arbiter.queue.flatMap (fun e =>
      u8 e.axis.number ++ u8 e.cls.code ++ u8 (h.demand e.axis) ++ u8 (holderCode (h.record e.axis).holder) ++ u16 e.left)

/-- FLOW_READ (R97). -/
def flowReadItem (_r : Role) (h : Hub) : Hub × Answer := (h, ⟨.ok, h.flowData⟩)

def execFlowRead (r : Role) (s : State) : Host.Outcome State Fault Refusal := s.item 0x19#8 (flowReadItem r)

end Sys2Proof.Machine
end

