-- ==== Sys2Proof/Machine/Motion.lean ====
section
/-! DEFINITION. Motion requests (04): MOVE with its steps, STOP and ALL_STOP. -/

namespace Sys2Proof.Machine

/-- An outcome with the axis's state, holder, lease and flow in use as the item left them, and what else the outcome carries
(R60). -/
def Hub.moveAnswer (h : Hub) (a : Axis) (v : Verdict) (more : List Byte) : Hub × Answer :=
  (h, ⟨v, (h.record a).moveData ++ more⟩)

/-- The value checks of step 5 that give BAD_VALUE: target and kind, ring direction, hold time, class code (R64 point 1). -/
def valuesLegal (a : Axis) (d : Direction) (t : Target) (hold : Nat) (cls : Option MotionClass) : Bool :=
  (match a, d, t with
    | .ring, .retract, _ => false
    | .ring, .extend, .run => true
    | .ring, .extend, .to v => decide (v < Config.ringCounts)
    | _, _, .run => false
    | _, _, .to v => decide (1 ≤ v ∧ v ≤ 4094))
    && decide (5 ≤ hold ∧ hold ≤ 255) && cls.isSome

/-- A linear target lies behind the axis, against the direction, by more than TOLERANCE; the ring has no such test (R64 point
2). -/
def Hub.targetBehind (h : Hub) (a : Axis) (d : Direction) (t : Target) : Bool :=
  let p := (h.sense a).position
  let tol := h.params.tolerance.get a
  match t with
  | .run => false
  | .to v =>
    a != .ring &&
      match d with
      | .extend => decide (v + tol < p)
      | .retract => decide (p + tol < v)

/-- Step 5 of a MOVE: the first value check that fails, with its outcome (R64). -/
def Hub.valueFault (h : Hub) (a : Axis) (d : Direction) (t : Target) (hold : Nat) (cls : Option MotionClass) :
    Option Verdict :=
  if !valuesLegal a d t hold cls then some .badValue
  else if h.targetBehind a d t then some .badValue
  else if cls == some .urgent && !h.params.urgentOk.get a then some .notAllowed
  else none

/-- Step 6: the target is already reached (R65). The ring must be REFERENCED at its encoder; the position compared is that of the
latest sample (log 9). -/
def Hub.targetReached (h : Hub) (a : Axis) (t : Target) : Bool :=
  let p := (h.sense a).position
  let tol := h.params.tolerance.get a
  match t with
  | .run => false
  | .to v =>
    if a = .ring then h.sampler.ringReferenced && decide (circularDistance p v ≤ tol)
    else decide (v ≤ p + tol ∧ p ≤ v + tol)

/-- A record with the values of an accepted MOVE (R15, R65, R66). -/
def AxisRecord.withMotion (x : AxisRecord) (d : Direction) (t : Target) (c : MotionClass) (hold : Nat) : AxisRecord :=
  { x with direction := d, target := t, cls := c, holdTime := hold }

/-- The item names the same kind of motion as the record, a RUN against a TO, or the axis is linear (R62). -/
def sameKind (a : Axis) (old new : Target) : Bool :=
  a != .ring ||
    match old, new with
    | .run, .run | .to _, .to _ => true
    | _, _ => false

/-- A refused value check's reply: BAD_VALUE carries no data, NOT_ALLOWED the data of R60. -/
def Hub.valueAnswer (h : Hub) (a : Axis) (v : Verdict) : Hub × Answer :=
  if v = .badValue then (h, .bare .badValue) else h.moveAnswer a v []

/-- A MOVE taken as a retarget (R67). -/
def Hub.retarget (h : Hub) (a : Axis) (d : Direction) (t : Target) (hold : Nat) (cls : Option MotionClass) : Hub × Answer :=
  let r := h.record a
  match h.valueFault a d t hold cls with
  | some v => h.valueAnswer a v
  | none =>
    if cls ≠ some r.cls then h.moveAnswer a .busy []
    else if h.targetReached a t then
      (((h.setRecord a { r with target := t, holdTime := hold }).endMotion a .arrived).service).moveAnswer a .ok []
    else if h.targetKeptOut a t then h.moveAnswer a .interlock (u8 a.number)
    else (h.setRecord a { r with target := t, holdTime := hold, lease := hold }).moveAnswer a .ok []

/-- Steps 7 to 10 of a MOVE (R24, R66): target and own zone, bale gate, other axes, flow. -/
def Hub.takeUp (h : Hub) (a : Axis) (d : Direction) (t : Target) (c : MotionClass) (hold : Nat) : Hub × Answer :=
  if h.targetKeptOut a t || !h.ownZoneOk a d then h.moveAnswer a .interlock (u8 a.number)
  else if !h.gateHolds a d t then h.moveAnswer a .gate []
  else
    match h.firstRefuser a d with
    | some b => h.moveAnswer a .interlock (u8 b.number)
    | none =>
      match (h.setRecord a ((h.record a).withMotion d t c hold)).askFlow a c with
      | (h', none) => h'.moveAnswer a .ok []
      | (h', some ahead) => h'.moveAnswer a .queued (u8 ahead)

/-- Steps 4 to 10 of a MOVE on a CLAIMED axis (R63 to R66). -/
def Hub.newMotion (h : Hub) (a : Axis) (d : Direction) (t : Target) (hold : Nat) (cls : Option MotionClass) : Hub × Answer :=
  if a != .ring && !(h.sense a).valid then h.moveAnswer a .noPosition []
  else
    match h.valueFault a d t hold cls, cls with
    | some v, _ => h.valueAnswer a v
    | none, none => (h, .bare .badValue)
    | none, some c =>
      if h.targetReached a t then
        ((h.setRecord a ((h.record a).withMotion d t c hold)).endMotion a .arrived).moveAnswer a .ok []
      else h.takeUp a d t c hold

/-- MOVE (R60): step 0 the axis number and direction code, step 1 the holder (R61), step 2 the mode, step 3 the state of the axis
(R62), then a retarget or steps 4 to 10. -/
def moveItem (r : Role) (m : MoveArgs) (h : Hub) : Hub × Answer :=
  match argAxis m.axis, argDirection m.direction with
  | some a, some d =>
    let x := h.record a
    let t := argTarget m.target
    if x.lateFor r then h.moveAnswer a .late []
    else if x.holder ≠ some r then h.moveAnswer a .notHolder []
    else if h.control.mode ≠ .run then h.moveAnswer a .wrongMode []
    else
      match x.state with
      | .idle | .waiting | .paused => h.moveAnswer a .busy []
      | .moving =>
        if x.direction = d ∧ sameKind a x.target t then h.retarget a d t m.hold.toNat (argClass m.cls)
        else h.moveAnswer a .busy []
      | .claimed => h.newMotion a d t m.hold.toNat (argClass m.cls)
  | _, _ => (h, .bare .badValue)

def execMove (r : Role) (m : MoveArgs) (s : State) : Host.Outcome State Fault Refusal := s.item 0x15#8 (moveItem r m)

/-- An outcome with the axis's state and holder as the item left them (R76). -/
def Hub.stopAnswer (h : Hub) (a : Axis) (v : Verdict) : Hub × Answer := (h, ⟨v, (h.record a).stopData⟩)

/-- STOP (R76, R77). -/
def stopItem (r : Role) (axis : Byte) (h : Hub) : Hub × Answer :=
  match argAxis axis with
  | none => (h, .bare .badValue)
  | some a =>
    let x := h.record a
    if x.lateFor r then h.stopAnswer a .late
    else if h.control.mode ≠ .run then h.stopAnswer a .wrongMode
    else if x.state.inFlight then
      ((h.endMotion a (if x.holder = some r then .stopped else .stoppedOther)).service).stopAnswer a .ok
    else h.stopAnswer a .ok

def execStop (r : Role) (axis : Byte) (s : State) : Host.Outcome State Fault Refusal := s.item 0x16#8 (stopItem r axis)

/-- The axes an ALL_STOP ends: WAITING, MOVING or PAUSED (R78). -/
def Hub.inFlightAxes (h : Hub) : List Axis := Axis.list.filter (fun a => (h.record a).state.inFlight)

/-- ALL_STOP (R78): every motion ended with cause ALL_STOP, and the service; the result is the set of axes stopped, bit n for
axis n. -/
def allStopItem (_r : Role) (h : Hub) : Hub × Answer :=
  let axes := h.inFlightAxes
  let h' := axes.foldl (fun h a => h.endMotion a .allStop) h
  (if axes.isEmpty then h' else h'.service, ⟨.ok, u8 ((axes.map (fun a => 2 ^ a.number)).sum)⟩)

def execAllStop (r : Role) (s : State) : Host.Outcome State Fault Refusal := s.item 0x17#8 (allStopItem r)

end Sys2Proof.Machine
end

