-- ==== Sys2Proof/Machine/Notices.lean ====
section
/-! DEFINITION. The notice requests (08): NOTICE_READ, NOTICE_CLEAR, NOTICE_MASK. Each acts on the port it arrives on. -/

namespace Sys2Proof.Machine

/-- The pending set and the enable set of a port (R146). -/
def NoticePort.setData (p : NoticePort) : List Byte := kindChars p.pending ++ kindChars p.enable

/-- NOTICE_READ (R146). -/
def noticeReadItem (r : Role) (h : Hub) : Hub × Answer := (h, ⟨.ok, (h.notices.get r).setData⟩)

def execNoticeRead (r : Role) (s : State) : Host.Outcome State Fault Refusal := s.item 0x51#8 (noticeReadItem r)

/-- The hub with a port's notice sets replaced. -/
def Hub.setNotices (h : Hub) (r : Role) (p : NoticePort) : Hub := { h with notices := h.notices.set r p }

/-- NOTICE_CLEAR (R147): the result is the earlier pending set, then both sets as the clear left them. -/
def noticeClearItem (r : Role) (kinds : KindBits) (h : Hub) : Hub × Answer :=
  match argKinds kinds with
  | none => (h, .bare .badValue)
  | some k =>
    let p := h.notices.get r
    (h.setNotices r (p.clear k), ⟨.ok, kindChars p.pending ++ (p.clear k).setData⟩)

def execNoticeClear (r : Role) (kinds : KindBits) (s : State) : Host.Outcome State Fault Refusal :=
  s.item 0x52#8 (noticeClearItem r kinds)

/-- NOTICE_MASK (R148). -/
def noticeMaskItem (r : Role) (kinds : KindBits) (h : Hub) : Hub × Answer :=
  match argKinds kinds with
  | none => (h, .bare .badValue)
  | some k =>
    let p := (h.notices.get r).mask k
    (h.setNotices r p, ⟨.ok, p.setData⟩)

def execNoticeMask (r : Role) (kinds : KindBits) (s : State) : Host.Outcome State Fault Refusal :=
  s.item 0x53#8 (noticeMaskItem r kinds)

end Sys2Proof.Machine
end

