-- ==== Sys2Proof/Machine/Sampling.lean ====
section
/-! DEFINITION. The position sampler's events (01): the sample with crossing evaluation, slope re-check, arrivals and service,
and the inclinometer. -/

namespace Sys2Proof.Machine

/-! ### The sample -/

/-- The raw reading of a position input (R183): linear, 0 V giving 0 and 3.0 V or more 4095. For a voltage between two readings
the free value takes the lower or the upper one (log 20). -/
def rawReading (v : Voltage) : Nat :=
  let n := v / Config.voltsPerStep
  if Config.readingMax ≤ n then Config.readingMax
  else if v % Config.voltsPerStep = 0 then n
  else if Config.conversionUp v then n + 1 else n

/-- The reading of a linear axis at a sample, or the encoder counter's position for RING (R2). -/
def Hub.captured (h : Hub) (volts : Voltages) : Axis → Nat
  | .flap => rawReading volts.flap
  | .tailgate => rawReading volts.tailgate
  | .cradle => rawReading volts.cradle
  | .ring => h.sampler.ringPosition
  | .tilt => rawReading volts.tilt
  | .cutter => rawReading volts.cutter

/-- A raw reading that makes a linear axis valid (R3). -/
def readingValid (raw : Nat) : Bool := decide (16 ≤ raw ∧ raw ≤ 4079)

/-- What a sample derives for one axis: a linear axis is valid in 16–4079 and otherwise keeps its last valid position (R3); the
ring is valid while REFERENCED (R8); the zone of a valid axis is counted on the boundaries, that of an invalid one is U (R9). -/
def Hub.derive (h : Hub) (volts : Voltages) (a : Axis) : Sense :=
  let raw := h.captured volts a
  let valid := if a = .ring then h.sampler.ringReferenced else readingValid raw
  let position := if a = .ring then raw else if valid then raw else (h.sense a).position
  { raw := raw, position := position, valid := valid,
    zone := if valid then (h.map.get a).bounds.zoneOf position else .unknown }

/-- The hub with the values of a sample as the current ones, and the slope captured (R2, R14). -/
def Hub.capture (h : Hub) (volts : Voltages) : Hub :=
  { h with sampler := { h.sampler with
      sense := ⟨h.derive volts .flap, h.derive volts .tailgate, h.derive volts .cradle, h.derive volts .ring, h.derive volts .tilt,
        h.derive volts .cutter⟩,
      fresh := false, sampled := true, sampledSlope := h.sampler.slope, sampledSlopeValid := h.sampler.slopeValid } }

/-- A linear axis becomes invalid: out of range at this sample, and valid before or this is the first sample (R4). -/
def Hub.becomesInvalid (h : Hub) (volts : Voltages) (a : Axis) : Bool :=
  a != .ring && !readingValid (h.captured volts a) && ((h.sense a).valid || h.sampler.fresh)

/-- An axis is in the change set: its zone or validity differs from the previous sample (R11). -/
def Hub.changedFrom (h before : Hub) (a : Axis) : Bool :=
  (h.sense a).zone != (before.sense a).zone || (h.sense a).valid != (before.sense a).valid

/-- Some changed axis's new entry does not allow the direction in which `y` moves (R32). -/
def Hub.blockedByNeighbour (h before : Hub) (y : Axis) : Bool :=
  Axis.list.any fun x => x != y && h.changedFrom before x &&
    !((h.currentEntry x).allow.towards x y).contains (h.record y).direction

/-- What crossing evaluation and the slope re-check decide for one axis at a sample, in the order of precedence SENSOR, LIMIT,
BLOCKED, SLOPE; each determination stands on the records as the sample finds them (R29, R31 to R35). -/
def Hub.sampleStop (h before : Hub) (a : Axis) : Option EndCause :=
  let r := h.record a
  let s := h.sense a
  if r.state ≠ .moving then none
  else if h.changedFrom before a && !s.valid then some .sensor
  else if h.changedFrom before a && (h.currentEntry a).kind.forbids r.direction then some .limit
  else if h.blockedByNeighbour before a then some .blocked
  else if a = .tilt ∧ r.direction = .extend ∧ h.slopeOk = false then some .slope
  else none

/-- A MOVING axis has arrived at its target, by the positions of the latest sample (R73). -/
def Hub.arrived (h : Hub) (a : Axis) : Bool :=
  let r := h.record a
  let s := h.sense a
  let tol := h.params.tolerance.get a
  r.state == .moving &&
    match r.target with
    | .run => false
    | .to t =>
      if a = .ring then s.valid && decide (circularDistance s.position t ≤ tol)
      else
        match r.direction with
        | .extend => decide (t ≤ s.position + tol)
        | .retract => decide (s.position ≤ t + tol)

/-- The stops of a sample applied together, each with its own cause (R35). -/
def Hub.applyStops (h : Hub) (stops : List (Axis × EndCause)) : Hub :=
  stops.foldl (fun h p => h.endMotion p.1 p.2) h

/-- The stops a sample decides, in axis order. -/
def Hub.sampleStops (h before : Hub) : List (Axis × EndCause) :=
  Axis.list.filterMap (fun a => (h.sampleStop before a).map (a, ·))

/-- The claim table's and the arbiter's work on one sample: the stops, then the arrivals of the axes still MOVING, then one
service if there was any of either (R11, R35, R73, R74, R90). -/
def Hub.evaluate (h before : Hub) : Hub :=
  let stops := h.sampleStops before
  let h1 := h.applyStops stops
  let arrivals := Axis.list.filter h1.arrived
  let h2 := arrivals.foldl (fun h a => h.endMotion a .arrived) h1
  if stops.isEmpty && arrivals.isEmpty then h2 else h2.service

/-- A sample (R2): the values captured, SENSOR_FAULT posted to all when a linear axis becomes invalid (R4), and the whole sample
handed to the claim table as one event (R11). -/
def Hub.sample (h : Hub) (volts : Voltages) : Hub :=
  let h' := h.capture volts
  let h'' := if Axis.list.any (h.becomesInvalid volts) then h'.postAll .sensorFault else h'
  h''.evaluate h

def execSample (volts : Voltages) (s : State) : Host.Outcome State Fault Refusal := s.event (fun h => h.sample volts)

/-! ### The inclinometer -/

/-- A period within which the edge timer has run out: it is not measurable (R12). -/
def Period.spoilt : Period → Period
  | .noPeriod => .noPeriod
  | .highPart _ => .highPart true
  | .lowPart high _ => .lowPart high true

/-- The edge timer runs out, if it runs: the slope becomes invalid and keeps its value, and the period in progress is no longer
measurable (R12, R13). -/
def Sampler.edgeTimeout (s : Sampler) : Sampler :=
  match s.edgeTimer with
  | .running _ => { s with edgeTimer := .ranOut, slopeValid := false, period := s.period.spoilt }
  | .stopped | .ranOut => s

/-- High time divided by period in units of 0.1 %, rounded to the nearest; exactly between two steps the free value decides
(R12; log 5). -/
def dutyOf (high period : Nat) : Nat :=
  let q := 1000 * high / period
  let rest := 2 * (1000 * high % period)
  if rest < period then q else if period < rest then q + 1 else if Config.dutyTieUp high period then q + 1 else q

/-- The slope after a measured period: duty minus 500 in 10.0–90.0 %, otherwise invalid with its last valid value (R12). -/
def Sampler.measure (s : Sampler) (high period : Nat) : Sampler :=
  let duty := dutyOf high period
  if 100 ≤ duty ∧ duty ≤ 900 then { s with slope := (duty : Int) - 500, slopeValid := true }
  else { s with slopeValid := false }

/-- A rising edge completes the period in progress and begins the next; a period is measured when it holds one falling edge
and the edge timer has not run out within it (R12; log 6). -/
def Sampler.risingEdge (s : Sampler) (elapsed : Nat) : Sampler :=
  let s' := match s.period with
    | .lowPart high false => if high + elapsed = 0 then s else s.measure high (high + elapsed)
    | .lowPart _ true | .highPart _ | .noPeriod => s
  { s' with period := .highPart false }

/-- A falling edge ends the high part of the period in progress; a second falling edge in one period makes it unmeasurable
(R12; log 6). -/
def Sampler.fallingEdge (s : Sampler) (elapsed : Nat) : Sampler :=
  { s with period := match s.period with
      | .noPeriod => .noPeriod
      | .highPart spoilt => .lowPart elapsed spoilt
      | .lowPart high _ => .lowPart high true }

/-- An inclinometer edge (R12, R13): an edge more than 100 ms after the one before it finds the edge timer run out, its expiry
being taken first where it has not been, and its period not measurable (log 6); every edge restarts the timer. -/
def Sampler.inclinometerEdge (s : Sampler) (rising : Bool) (elapsed : Nat) : Sampler :=
  let s := if Config.edgeTimerMicros < elapsed then { s.edgeTimeout with period := s.period.spoilt } else s
  let s := if rising then s.risingEdge elapsed else s.fallingEdge elapsed
  { s with edgeTimer := .running Config.edgeTimerLength }

def execInclinometerEdge (rising : Bool) (elapsed : Nat) (s : State) : Host.Outcome State Fault Refusal :=
  s.event (fun h => { h with sampler := h.sampler.inclinometerEdge rising elapsed })

def execInclinometerTimeout (s : State) : Host.Outcome State Fault Refusal :=
  s.event (fun h => { h with sampler := h.sampler.edgeTimeout })

end Sys2Proof.Machine
end

