-- ==== Sys2Proof/Machine/Frames.lean ====
section
/-! DEFINITION. The station ports and the request handler (10): receiving characters, handing frames over, taking the items of
a frame, sending replies, and the moment a restart takes effect. -/

namespace Sys2Proof.Machine

/-- The hub with a port replaced. -/
def Hub.setPort (h : Hub) (r : Role) (p : Port) : Hub := { h with ports := h.ports.set r p }

/-! ### The hand-over -/

/-- The frame a receiver holds. -/
def Receiver.held : Receiver → Option Frame
  | .holding f => some f
  | .waitMark | .collecting _ _ => none

/-- The first port, in the order of completion, whose held frame may be handed over: its reply-pending condition is clear (R171,
R175). -/
def Hub.nextHandOver (h : Hub) : Option Role := h.heldOrder.find? (fun r => !(h.ports.get r).replyPending)

/-- A hand-over when the handler is free and a complete frame may go: the reply-pending condition is set, the receive buffer is
free and the receiver back in WAIT_MARK (R171, R175). -/
def Hub.handOver (h : Hub) : Hub :=
  match h.handler, h.nextHandOver with
  | .free, some r =>
    match (h.ports.get r).receiver.held with
    | some f =>
      { h.setPort r { h.ports.get r with receiver := .waitMark, replyPending := true } with
        handler := .handed r f, heldOrder := h.heldOrder.erase r }
    | none => h
  | _, _ => h

/-! ### Receiving characters -/

/-- A count character that may begin a frame: 2–254 (R167). -/
def countLegal (data : Byte) : Bool := decide (2 ≤ data.toNat ∧ data.toNat ≤ 254)

/-- The receiver after a marked character outside HOLDING: a new frame begins, or the character is discarded (R167). -/
def beginFrame (data : Byte) : Receiver := if countLegal data then .collecting data [] else .waitMark

/-- A character taken by a port's receiver (R166, R167, R168, R176): `stopHigh` false is a framing fault, which discards the
character and any partial frame and posts nothing, also in HOLDING (log 15). -/
def Hub.receive (h : Hub) (r : Role) (data : Byte) (mark stopHigh : Bool) : Hub :=
  let p := h.ports.get r
  match p.receiver, stopHigh, mark with
  | .waitMark, true, true => h.setPort r { p with receiver := beginFrame data }
  | .waitMark, _, _ => h
  | .collecting _ _, false, _ => h.setPort r { p with receiver := .waitMark }
  | .collecting _ _, true, true => h.setPort r { p with receiver := beginFrame data }
  | .collecting n chars, true, false =>
    let chars := chars ++ [data]
    if chars.length = n.toNat then
      { h.setPort r { p with receiver := .holding ⟨n, chars⟩ } with heldOrder := h.heldOrder ++ [r] }.handOver
    else h.setPort r { p with receiver := .collecting n chars }
  | .holding _, true, true => h.post .linkOverrun r
  | .holding _, _, _ => h

def execCharacterReceive (r : Role) (data : Byte) (mark stopHigh : Bool) (s : State) : Host.Outcome State Fault Refusal :=
  s.event (fun h => h.receive r data mark stopHigh)

/-! ### Sum check and delimiting -/

/-- The sum of characters, modulo 256. -/
def charSum (l : List Byte) : Byte := l.foldl (· + ·) 0#8

/-- The sum of all the characters of a frame is 0xFF (R169). -/
def Frame.sumGood (f : Frame) : Bool := charSum (f.count :: f.chars) == 0xFF#8

/-- The item area: the characters between the count and the sum (R167). -/
def Frame.itemArea (f : Frame) : List Byte := f.chars.dropLast

/-- The item area delimited into items; characters that make no whole item form the residue (R170). `fuel` bounds the walk by the
length of the area. -/
def delimit : Nat → List Byte → List RawItem
  | 0, _ => []
  | _ + 1, [] => []
  | _ + 1, [code] => [⟨code, [], true⟩]
  | fuel + 1, code :: len :: rest =>
    if len.toNat ≤ rest.length then ⟨code, rest.take len.toNat, false⟩ :: delimit fuel (rest.drop len.toNat)
    else [⟨code, rest, true⟩]

/-- The items of a frame (R170). -/
def Frame.items (f : Frame) : List RawItem := delimit f.itemArea.length f.itemArea

/-! ### Taking items -/

/-- The request code and the effect of an item command; an event is no item. -/
def itemOf : Instr → Option (Byte × (Hub → Hub × Answer))
  | .claim r a => some (0x11#8, claimItem r a)
  | .release r a => some (0x12#8, releaseItem r a)
  | .handover r a p => some (0x13#8, handoverItem r a p)
  | .refresh r a => some (0x14#8, refreshItem r a)
  | .move r m => some (0x15#8, moveItem r m)
  | .stop r a => some (0x16#8, stopItem r a)
  | .allStop r => some (0x17#8, allStopItem r)
  | .axisRead r a => some (0x18#8, axisReadItem r a)
  | .flowRead r => some (0x19#8, flowReadItem r)
  | .baleStart r => some (0x21#8, baleStartItem r)
  | .bindStart r => some (0x22#8, bindStartItem r)
  | .bindRetry r => some (0x23#8, bindRetryItem r)
  | .wrapStart r => some (0x24#8, wrapStartItem r)
  | .filmReset r d => some (0x25#8, filmResetItem r d)
  | .baleNote r v => some (0x26#8, baleNoteItem r v)
  | .baleDeclare r p g => some (0x27#8, baleDeclareItem r p g)
  | .baleRead r => some (0x28#8, baleReadItem r)
  | .logRead r => some (0x29#8, logReadItem r)
  | .logDrop r n => some (0x2A#8, logDropItem r n)
  | .paramGet r i => some (0x31#8, paramGetItem r i)
  | .paramSet r i v => some (0x32#8, paramSetItem r i v)
  | .zoneGet r a z => some (0x33#8, zoneGetItem r a z)
  | .zoneSetBounds r a b => some (0x34#8, zoneSetBoundsItem r a b)
  | .zoneSetEntry r a e k f => some (0x35#8, zoneSetEntryItem r a e k f)
  | .modeSet r m => some (0x41#8, modeSetItem r m)
  | .clearStop r => some (0x42#8, clearStopItem r)
  | .restart r => some (0x43#8, restartItem r)
  | .status r => some (0x44#8, statusItem r)
  | .noticeRead r => some (0x51#8, noticeReadItem r)
  | .noticeClear r k => some (0x52#8, noticeClearItem r k)
  | .noticeMask r k => some (0x53#8, noticeMaskItem r k)
  | .powerOn _ | .sample _ | .ringCount | .ringIndexCount | .inclinometerEdge _ _ | .inclinometerTimeout | .leaseExpiry _
  | .waitTimeout _ | .filmBreakEdge _ _ | .netPulse | .netFeedEdge _ | .netStartTimeout | .netGapTimeout | .cradleLoadActive
  | .cradleLoadInactive | .tableLoadActive | .tableLoadInactive | .transitTimeout | .tableLate | .fieldClockTick
  | .prechamberFullEdge _ | .stopInputActive | .stopInputInactive | .characterReceive _ _ _ _ | .frameHandover _ _
  | .replySent _ | .restartEffect => none

/-- The largest entry that a request of this code can produce (R178); a code without one is answered with a bare entry. -/
def largestEntry (code : Byte) : Nat :=
  match requestForm code with
  | some (_, largest) => largest
  | none => 3

/-- The part of the reply area that the entries before an item may take: the largest entry of each of their requests. R173's test
depends only on the requests in the frame and not on the state, so what an entry in fact took is not asked. -/
def reservedLength (es : List Entry) : Nat := (es.map (fun e => largestEntry e.request)).sum

/-- The item fits: its largest entry is at most the space left in the reply area once a SKIPPED entry of three characters is
reserved for each later item (R173, R178). -/
def replyFits (code : Byte) (built : List Entry) (later : Nat) : Bool :=
  decide (largestEntry code + reservedLength built + 3 * later ≤ Config.replyAreaMax)

/-- One item of a frame taken, or answered without being taken (R172, R173): SKIPPED after a refusal, BAD_REQUEST when malformed
(log 12), SKIPPED when the reply has no room, and otherwise its request's own effect and outcome. -/
def Hub.takeOne (h : Hub) (r : Role) (x : RawItem) (built : List Entry) (refused : Bool) (later : Nat) : Hub × Answer :=
  if refused then (h, .bare .skipped)
  else
    match if x.residue then none else decodeItem r x.code x.args with
    | none => (h, .bare .badRequest)
    | some i =>
      if !replyFits x.code built later then (h, .bare .skipped)
      else
        match itemOf i with
        | some (_, f) => f h
        | none => (h, .bare .badRequest)

/-- The characters of a frame as the transmitter sends them: the mark bit set on the first and clear on every other (R166). -/
def marked : List Byte → List LineChar
  | [] => []
  | first :: rest => ⟨true, first⟩ :: rest.map (fun c => ⟨false, c⟩)

/-- A reply frame: marked count character, reply area, and the sum character that makes the sum 0xFF (R166, R173). -/
def replyFrame (es : List Entry) : List LineChar :=
  let area := es.flatMap Entry.chars
  let body := BitVec.ofNat 8 (area.length + 1) :: area
  marked (body ++ [0xFF#8 - charSum body])

/-- The last entry is built: the transmitter begins the reply, the handler is free and takes the next frame that waits (R171,
R174). -/
def Hub.finishFrame (h : Hub) (r : Role) (es : List Entry) : Hub :=
  { h.setPort r { h.ports.get r with sending := some (replyFrame es) } with handler := .free }.handOver

/-- The entry that answers a frame as a whole: request code 0x00 (R169, R170, R179). -/
def wholeFrameEntry (v : Verdict) : List Entry := [⟨0x00#8, .bare v⟩]

/-- The handler begins with a frame handed over: CHECK_ERROR for a bad sum, BAD_REQUEST for five or more items, and otherwise
its items stand to be taken (R169, R170). -/
def Hub.beginTaking (h : Hub) (r : Role) (f : Frame) : Hub :=
  if !f.sumGood then h.finishFrame r (wholeFrameEntry .checkError)
  else if Config.frameItemsMax < f.items.length then h.finishFrame r (wholeFrameEntry .badRequest)
  else { h with handler := .taking r f.items [] false }

/-- The next item of this port's frame taken and its entry built; with the last one the frame is finished (R171, R172, R173). -/
def Hub.takeItem (h : Hub) (r : Role) : Hub :=
  match h.handler with
  | .taking p (x :: rest) built refused =>
    if p = r then
      let y := h.takeOne r x built refused rest.length
      let built' := built ++ [⟨x.code, y.2⟩]
      let h' := y.1.answered x.code y.2
      if rest.isEmpty then h'.finishFrame r built'
      else { h' with handler := .taking r rest built' (refused || y.2.verdict.isRefusal) }
    else h
  | .taking _ [] _ _ | .free | .handed _ _ => h

/-- Up to `n` items of this port's frame taken, one after another. -/
def Hub.takeItems : Nat → Role → Hub → Hub
  | 0, _, h => h
  | n + 1, r, h =>
    match h.handler with
    | .taking p _ _ _ => if p = r then Hub.takeItems n r (h.takeItem r) else h
    | .free | .handed _ _ => h

/-- The handler takes up to `n` items of the frame this port has handed over, beginning with the sum check and the delimiting
(R169 to R173; log 11); a handler that holds no frame of this port takes nothing. -/
def Hub.frameHandover (h : Hub) (r : Role) (n : Nat) : Hub :=
  let h := h.handOver
  match h.handler with
  | .handed p f => if p = r then (h.beginTaking r f).takeItems n r else h
  | .taking _ _ _ _ => h.takeItems n r
  | .free => h

def execFrameHandover (r : Role) (n : Nat) (s : State) : Host.Outcome State Fault Refusal :=
  s.event (fun h => h.frameHandover r n)

/-! ### Replies sent, and the restart that waits for one -/

/-- The last character of a port's reply is sent: transmitter idle, reply-pending clear (R174). -/
def Hub.endReply (h : Hub) (r : Role) : Hub :=
  h.setPort r { h.ports.get r with sending := none, replyPending := false }

/-- A reply's last character sent (R174): on port C a pending restart takes effect in the same event (R163, R175, R177), and then
a held frame that may go is handed over. -/
def Hub.replySent (h : Hub) (r : Role) : Hub :=
  match (h.ports.get r).sending with
  | none => h
  | some _ =>
    let h := h.endReply r
    (if r = .ct ∧ h.control.restartPending then h.restarted else h).handOver

def execReplySent (r : Role) (s : State) : Host.Outcome State Fault Refusal := s.event (fun h => h.replySent r)

/-- The handler has a frame of port C in hand, so that the reply a restart waits for is not built yet. -/
def Handler.busyWithCt : Handler → Bool
  | .handed .ct _ | .taking .ct _ _ _ => true
  | .free | .handed _ _ | .taking _ _ _ _ => false

/-- A pending restart takes effect (R164): the reply that carried it has been sent, so port C's transmitter is idle and its
reply-pending condition clears with the restart (R177); a held frame is then handed over (R175). Without a pending restart, or
before that reply is built, there is none to take effect (log 13). -/
def Hub.restartEffect (h : Hub) : Hub :=
  if h.control.restartPending && !h.handler.busyWithCt then (h.endReply .ct).restarted.handOver else h

def execRestartEffect (s : State) : Host.Outcome State Fault Refusal := s.event Hub.restartEffect

end Sys2Proof.Machine
end

