-- ==== Sys2Proof/Machine/Time.lean ====
section
/-! DEFINITION. Time passing on an empty queue (log 2): 10 ms pass, or a timer that has run out sends its own command. -/

namespace Sys2Proof.Machine

/-- The commands of the timers that have run out and are not yet taken, in a fixed order. -/
def Hub.dueCommands (h : Hub) : List Instr :=
  (Axis.list.filter (fun a => (h.record a).state ≠ .idle ∧ (h.record a).lease = 0)).map .leaseExpiry
    ++ (h.arbiter.queue.filter (fun e => e.left = 0)).map (fun e => .waitTimeout e.axis)
    ++ (if h.counter.startTimer = some 0 then [.netStartTimeout] else [])
    ++ (if h.counter.gapTimer = some 0 then [.netGapTimeout] else [])
    ++ (if h.tracker.transit = some 0 then [.transitTimeout] else [])
    ++ (if h.sampler.edgeTimer = .running 0 then [.inclinometerTimeout] else [])
    ++ (if Config.unitsPerSecond ≤ h.clock.phase then [.fieldClockTick] else [])

/-- One of the due commands: the only one, or the one the free value picks (log 3). -/
def chooseDue (choice : Nat) : List Instr → Option Instr
  | [] => none
  | [c] => some c
  | c :: d :: rest => (c :: d :: rest)[Config.dueChoice choice % (rest.length + 2)]?

/-- A running timer counts down by one unit of 10 ms. -/
def countDown (t : Option Nat) : Option Nat := t.map (· - 1)

/-- The lease of a held axis counts down (R49). -/
def AxisRecord.tick (x : AxisRecord) : AxisRecord := if x.state = .idle then x else { x with lease := x.lease - 1 }

/-- Every record's lease. -/
def PerAxis.tick (p : PerAxis AxisRecord) : PerAxis AxisRecord :=
  ⟨p.flap.tick, p.tailgate.tick, p.cradle.tick, p.ring.tick, p.tilt.tick, p.cutter.tick⟩

/-- The edge timer counts down (R13). -/
def EdgeTimer.tick : EdgeTimer → EdgeTimer
  | .running left => .running (left - 1)
  | .stopped => .stopped
  | .ranOut => .ranOut

/-- The cradle wait of a record raised by one second, up to 65535 (R115). -/
def Bale.waitSecond (b : Bale) : Bale := { b with cradleWait := some (Nat.min (b.cradleWait.getD 0 + 1) Config.cradleWaitMax) }

/-- The stopwatch runs 10 ms: at each full second after its start its count rises by one, and with the rise the count is compared
with the limit, so that a bale which reaches it gains TABLE_LATE in the same event (R115, R116). -/
def Hub.stopwatchTick (h : Hub) : Hub :=
  match h.tracker.stopwatch with
  | some w =>
    if w.phase + 1 < Config.unitsPerSecond then
      { h with tracker := { h.tracker with stopwatch := some { w with phase := w.phase + 1 } } }
    else
      { h with tracker := { h.tracker with
          stopwatch := some { w with phase := 0 }, cradle := h.tracker.cradle.map Bale.waitSecond } }.lateCheck
  | none => h

/-- 10 ms pass: every running timer counts one unit (R13, R49, R85, R109, R115, R127, R128, R156). A timer that has run out rests
at 0 until its expiry is taken, so that a wait remaining may read 0 there: the model's choice (log 21). -/
def Hub.tick (h : Hub) : Hub :=
  ({ h with
    claims := { h.claims with records := h.claims.records.tick },
    arbiter := { h.arbiter with queue := h.arbiter.queue.map (fun e => { e with left := e.left - 1 }) },
    counter := { h.counter with startTimer := countDown h.counter.startTimer, gapTimer := countDown h.counter.gapTimer },
    tracker := { h.tracker with transit := countDown h.tracker.transit },
    sampler := { h.sampler with edgeTimer := h.sampler.edgeTimer.tick },
    clock := { h.clock with phase := h.clock.phase + 1 } } : Hub).stopwatchTick

/-- 10 ms pass on an empty queue. -/
def State.idle (s : State) : Host.Outcome State Fault Refusal := s.event Hub.tick

/-- The model's counter of choices advanced (log 3). -/
def State.nextChoice (s : State) : State := { s with choices := s.choices + 1 }

end Sys2Proof.Machine
end

