-- ==== Sys2Proof/Machine/Dispatch.lean ====
section
/-! DEFINITION. One arm for each command: a direct call of its meaning. -/

namespace Sys2Proof.Machine

def exec (i : Instr) (s : State) : Host.Outcome State Fault Refusal :=
  match i with
  | .powerOn levels => Sys2Proof.Machine.execPowerOn levels s
  | .sample readings => Sys2Proof.Machine.execSample readings s
  | .ringCount => Sys2Proof.Machine.execRingCount s
  | .ringIndexCount => Sys2Proof.Machine.execRingIndexCount s
  | .inclinometerEdge rising elapsed => Sys2Proof.Machine.execInclinometerEdge rising elapsed s
  | .inclinometerTimeout => Sys2Proof.Machine.execInclinometerTimeout s
  | .leaseExpiry axis => Sys2Proof.Machine.execLeaseExpiry axis s
  | .waitTimeout axis => Sys2Proof.Machine.execWaitTimeout axis s
  | .filmBreakEdge dispenser active => Sys2Proof.Machine.execFilmBreakEdge dispenser active s
  | .netPulse => Sys2Proof.Machine.execNetPulse s
  | .netFeedEdge active => Sys2Proof.Machine.execNetFeedEdge active s
  | .netStartTimeout => Sys2Proof.Machine.execNetStartTimeout s
  | .netGapTimeout => Sys2Proof.Machine.execNetGapTimeout s
  | .cradleLoadActive => Sys2Proof.Machine.execCradleLoadActive s
  | .cradleLoadInactive => Sys2Proof.Machine.execCradleLoadInactive s
  | .tableLoadActive => Sys2Proof.Machine.execTableLoadActive s
  | .tableLoadInactive => Sys2Proof.Machine.execTableLoadInactive s
  | .transitTimeout => Sys2Proof.Machine.execTransitTimeout s
  | .tableLate => Sys2Proof.Machine.execTableLate s
  | .fieldClockTick => Sys2Proof.Machine.execFieldClockTick s
  | .prechamberFullEdge active => Sys2Proof.Machine.execPrechamberFullEdge active s
  | .stopInputActive => Sys2Proof.Machine.execStopInputActive s
  | .stopInputInactive => Sys2Proof.Machine.execStopInputInactive s
  | .characterReceive port data mark stopHigh => Sys2Proof.Machine.execCharacterReceive port data mark stopHigh s
  | .frameHandover port items => Sys2Proof.Machine.execFrameHandover port items s
  | .replySent port => Sys2Proof.Machine.execReplySent port s
  | .restartEffect => Sys2Proof.Machine.execRestartEffect s
  | .claim role axis => Sys2Proof.Machine.execClaim role axis s
  | .release role axis => Sys2Proof.Machine.execRelease role axis s
  | .handover role axis recipient => Sys2Proof.Machine.execHandover role axis recipient s
  | .refresh role axis => Sys2Proof.Machine.execRefresh role axis s
  | .move role args => Sys2Proof.Machine.execMove role args s
  | .stop role axis => Sys2Proof.Machine.execStop role axis s
  | .allStop role => Sys2Proof.Machine.execAllStop role s
  | .axisRead role axis => Sys2Proof.Machine.execAxisRead role axis s
  | .flowRead role => Sys2Proof.Machine.execFlowRead role s
  | .baleStart role => Sys2Proof.Machine.execBaleStart role s
  | .bindStart role => Sys2Proof.Machine.execBindStart role s
  | .bindRetry role => Sys2Proof.Machine.execBindRetry role s
  | .wrapStart role => Sys2Proof.Machine.execWrapStart role s
  | .filmReset role dispenser => Sys2Proof.Machine.execFilmReset role dispenser s
  | .baleNote role value => Sys2Proof.Machine.execBaleNote role value s
  | .baleDeclare role place stage => Sys2Proof.Machine.execBaleDeclare role place stage s
  | .baleRead role => Sys2Proof.Machine.execBaleRead role s
  | .logRead role => Sys2Proof.Machine.execLogRead role s
  | .logDrop role count => Sys2Proof.Machine.execLogDrop role count s
  | .paramGet role index => Sys2Proof.Machine.execParamGet role index s
  | .paramSet role index value => Sys2Proof.Machine.execParamSet role index value s
  | .zoneGet role axis selector => Sys2Proof.Machine.execZoneGet role axis selector s
  | .zoneSetBounds role axis bounds => Sys2Proof.Machine.execZoneSetBounds role axis bounds s
  | .zoneSetEntry role axis entry kind allow => Sys2Proof.Machine.execZoneSetEntry role axis entry kind allow s
  | .modeSet role mode => Sys2Proof.Machine.execModeSet role mode s
  | .clearStop role => Sys2Proof.Machine.execClearStop role s
  | .restart role => Sys2Proof.Machine.execRestart role s
  | .status role => Sys2Proof.Machine.execStatus role s
  | .noticeRead role => Sys2Proof.Machine.execNoticeRead role s
  | .noticeClear role kinds => Sys2Proof.Machine.execNoticeClear role kinds s
  | .noticeMask role kinds => Sys2Proof.Machine.execNoticeMask role kinds s

end Sys2Proof.Machine
end

