-- ==== Sys2Proof/Machine/Step.lean ====
section
/-! DEFINITION. One step: the command at the front of the queue, or, on an empty queue, a timer that has run out or 10 ms of
time (log 1, log 2). -/

namespace Sys2Proof.Machine

/-- The block takes the command at the front of its queue. With no command waiting its own timers act: a due expiry is taken,
else 10 ms pass. -/
def step (s : State) : Host.Outcome State Fault Refusal :=
  match s.pending with
  | c :: rest => exec c { s with pending := rest }
  | [] =>
    match chooseDue s.choices s.hub.dueCommands with
    | some c => exec c s.nextChoice
    | none => s.idle

/-- The state with the command that a table word spells at the front of its queue; no word spells one. -/
def State.withFetchWord (s : State) (nbits w : Nat) : State :=
  match decodeTableWord nbits w with
  | some c => { s with pending := c :: s.pending }
  | none => s

end Sys2Proof.Machine
end

