-- ==== Sys2Proof/Safety.lean ====
section
/-! DEFINITION. What counts as a sound state of the part, block by block, in the terms the statements use. Each predicate is
a sentence of the spec that holds between any two commands. -/

namespace Sys2Proof.Machine

/-- The part goes on: the step neither faults nor refuses (R172: a refused item is answered, and the part stays as it is). -/
def State.goesOn (s : State) : Prop := ∃ t, step s = .next t

/-- Every attention line is active exactly while its port holds a pending notice of an enabled kind (R149). -/
def Hub.linesAgree (h : Hub) : Prop := ∀ r, (h.notices.get r).line = (h.notices.get r).lineOf

/-- Every valve enable output is on exactly while its axis is MOVING in that output's direction (R71). -/
def Hub.valvesAgree (h : Hub) : Prop :=
  ∀ a, h.claims.valves.get a = if (h.record a).state = .moving then .towards (h.record a).direction else .off

/-- The stop latch is set exactly while the mode is STOPPED (R157). -/
def Hub.latchAgrees (h : Hub) : Prop := h.control.stopLatch = true ↔ h.control.mode = .stopped

/-- FEED HOLD is asserted exactly while its condition holds (R117). -/
def Hub.feedHoldAgrees (h : Hub) : Prop := h.tracker.feedHold = h.feedHoldCondition

/-- The stages of a place (R100). -/
def Place.admits : Place → Stage → Bool
  | .chamber, .forming | .chamber, .binding | .chamber, .bound | .chamber, .ejecting => true
  | .cradle, .carried => true
  | .table, .onTable | .table, .wrapping | .table, .wrapped | .table, .dropping => true
  | _, _ => false

/-- Every record of the bale queue is in a stage of its place (R100). -/
def Tracker.stagesAgree (t : Tracker) : Prop := ∀ p b, t.at p = some b → p.admits b.stage = true

/-- The log holds at most 32 records (R121). -/
def Tracker.logBounded (t : Tracker) : Prop := t.log.length ≤ Config.logCapacity

/-- No bale number appears twice across the bale queue and the bale log, and the next one is a bale number (R101). -/
def Tracker.numbersAgree (t : Tracker) : Prop := t.heldNumbers.Nodup ∧ 1 ≤ t.nextNumber ∧ t.nextNumber ≤ 65535

/-- Every parameter lies in its range (R151). -/
def Hub.paramsAgree (h : Hub) : Prop :=
  h.params.flowBudget ≤ 250 ∧ (∀ a, h.params.demand.get a ≤ 100 ∧ h.params.tolerance.get a ≤ 63) ∧
    h.params.ringPark ≤ 719 ∧ h.params.slopeLimit ≤ 250 ∧
    (1 ≤ h.params.claimLease ∧ h.params.claimLease ≤ 120) ∧ (1 ≤ h.params.waitLimit ∧ h.params.waitLimit ≤ 60) ∧
    (4 ≤ h.params.netTarget ∧ h.params.netTarget ≤ 255) ∧ (1 ≤ h.params.netStartLimit ∧ h.params.netStartLimit ≤ 20) ∧
    (2 ≤ h.params.netGapLimit ∧ h.params.netGapLimit ≤ 50) ∧ (2 ≤ h.params.filmTarget ∧ h.params.filmTarget ≤ 60) ∧
    (10 ≤ h.params.tableLateLimit ∧ h.params.tableLateLimit ≤ 600)

/-- The counts of a record: at most 4 breaks, layers at most one above the target and below it while WRAPPING, net pulses at
most the target and below it while BINDING (R126, R134). -/
def Bale.countsAgree (b : Bale) : Prop :=
  (∀ f, b.film = some f → f.breaks.length ≤ Config.breakCapacity ∧ f.layers ≤ f.target + 1 ∧
      (b.stage = .wrapping → f.layers < f.target)) ∧
    ∀ n, b.net = some n → n.pulses ≤ n.target ∧ (b.stage = .binding → n.pulses < n.target)

/-- The counts of every record of the queue and of the log; the targets to be copied next are above 0 (R151). -/
def Hub.countsAgree (h : Hub) : Prop :=
  (∀ p b, h.tracker.at p = some b → b.countsAgree) ∧ (∀ b, b ∈ h.tracker.log → b.countsAgree) ∧
    0 < h.params.filmTarget ∧ 0 < h.params.netTarget

/-- An axis has a holder exactly when it is not IDLE, its lease is 0 in IDLE, and its flow in use is its DEMAND while MOVING
and 0 otherwise (R16). -/
def Hub.recordsAgree (h : Hub) : Prop :=
  ∀ a, ((h.record a).state = .idle ↔ (h.record a).holder = none) ∧
    ((h.record a).state = .idle → (h.record a).lease = 0) ∧
    (h.record a).flow = if (h.record a).state = .moving then h.demand a else 0

/-- An axis has an entry exactly when it is WAITING or PAUSED, a RESUME entry exactly when PAUSED, and no two (R83). -/
def Hub.queueAgrees (h : Hub) : Prop :=
  (h.arbiter.queue.map (·.axis)).Nodup ∧
    (∀ a, (∃ e ∈ h.arbiter.queue, e.axis = a) ↔ (h.record a).state = .waiting ∨ (h.record a).state = .paused) ∧
    ∀ e, e ∈ h.arbiter.queue → (e.cls = .resume ↔ (h.record e.axis).state = .paused)

/-- The band of a class in the wait queue, from the head (R84). -/
def WaitClass.band : WaitClass → Nat
  | .urgent => 0
  | .resume => 1
  | .normal => 2

/-- The queue is kept in its three bands: URGENT, RESUME, NORMAL (R84). -/
def Hub.bandsAgree (h : Hub) : Prop := h.arbiter.queue.Pairwise (fun x y => x.cls.band ≤ y.cls.band)

/-- The grant order lists the MOVING axes once each, the flow in use is the sum of DEMAND over them, and it does not exceed
FLOW_BUDGET (R82). -/
def Hub.flowAgrees (h : Hub) : Prop :=
  h.arbiter.grantOrder.Nodup ∧ (∀ a, a ∈ h.arbiter.grantOrder ↔ (h.record a).state = .moving) ∧
    h.arbiter.inUse = (h.arbiter.grantOrder.map h.demand).sum ∧ h.arbiter.inUse ≤ h.params.flowBudget

/-- Outside RUN every axis is IDLE (R58, R158). -/
def Hub.restsOutsideRun (h : Hub) : Prop := h.control.mode ≠ .run → ∀ a, (h.record a).state = .idle

/-- The claim table and the flow arbiter agree with one another and with the mode. -/
def Hub.motionAgrees (h : Hub) : Prop :=
  h.recordsAgree ∧ h.queueAgrees ∧ h.flowAgrees ∧ h.restsOutsideRun

/-- The interlock: every MOVING axis moves in a direction that its own zone does not forbid and that the current entry of
every other axis permits (R23, R35). -/
def Hub.interlocked (h : Hub) : Prop :=
  ∀ a, (h.record a).state = .moving →
    h.ownZoneOk a (h.record a).direction = true ∧
      ∀ b, b ≠ a → ((h.currentEntry b).allow.towards b a).contains (h.record a).direction = true

/-- The zone of an axis is U exactly when the axis is invalid (R9). -/
def Hub.zonesAgree (h : Hub) : Prop := ∀ a, (h.sense a).zone = .unknown ↔ (h.sense a).valid = false

/-! ### The vocabulary of the statements that the laws share -/

/-- The part when the motion of `a` has just ended and its record is `y`, before the service (R45, R75, R93): its valve is off, its
flow is returned, it is out of the grant order and of the queue, and its notice goes to the holder it had and to CT. -/
def Says.endedHub (h : Hub) (a : Axis) (y : AxisRecord) : Hub :=
  { h with
    claims := { records := h.claims.records.set a y, valves := h.claims.valves.set a .off },
    arbiter := { inUse := h.arbiter.inUse - (h.record a).flow,
                 grantOrder := h.arbiter.grantOrder.filter (fun b => b ≠ a),
                 queue := h.arbiter.queue.filter (fun e => e.axis ≠ a) } }.postTo (.axis a)
    ((h.record a).holder.toList ++ [Role.ct])

/-- A kind is pending for a role in a part. -/
def Says.posted (h : Hub) (n : Notice) (r : Role) : Prop := (h.notices.get r).pending.getLsbD n.number = true

/-- The bale number `k` numbers on from another, from 65535 to 1 (R101). -/
def Says.numberOn : Nat → Nat → Nat
  | 0, n => n
  | k + 1, n => numberOn k (if 65535 ≤ n then 1 else n + 1)

/-- `n` is reached from `start` by passing over numbers that are held, each of them (R101). -/
def Says.passesOver (held : List Nat) (start n : Nat) : Prop :=
  ∃ k, n = Says.numberOn k start ∧ ∀ j, j < k → Says.numberOn j start ∈ held

/-- What the grant of a motion does to the tracker (R72, R107): a BOUND chamber bale becomes EJECTING with TAILGATE in EXTEND, a
WRAPPED table bale DROPPING with TILT in EXTEND, each with BALE_MOVED to all three roles; any other grant does nothing there. -/
def Says.reported (h k : Hub) (a : Axis) (d : Direction) : Prop :=
  (∀ b, a = .tailgate → d = .extend → h.tracker.chamber = some b → b.stage = .bound →
    k.tracker = { h.tracker with chamber := some { b with stage := .ejecting }, feedHold := k.tracker.feedHold } ∧
      (h.feedHoldAgrees → k.tracker.feedHold = h.tracker.feedHold) ∧ ∀ r, Says.posted k .baleMoved r) ∧
  (∀ b, a = .tilt → d = .extend → h.tracker.table = some b → b.stage = .wrapped →
    k.tracker = { h.tracker with table := some { b with stage := .dropping } } ∧ ∀ r, Says.posted k .baleMoved r) ∧
  (¬ (a = .tailgate ∧ d = .extend ∧ h.tracker.stageAt .chamber = some .bound) →
    ¬ (a = .tilt ∧ d = .extend ∧ h.tracker.stageAt .table = some .wrapped) → k.tracker = h.tracker)

end Sys2Proof.Machine
end

