-- ==== Sys2Proof/Certificates/Slice0/Obligations.lean ====
section
/-! DEFINITION. The statements for the provers, from the numbered rules of spec/. Where a statement gives the whole next state
as an equation, that equation is its frame: everything it does not name is as before. -/

open Sys2Proof Sys2Proof.Machine

namespace Sys2Proof.Machine.Says

/-- The character that names an axis in an item (R178). -/
def axisCode (a : Axis) : Byte := BitVec.ofNat 8 a.number

/-- The character that names a role in an item (R178). -/
def roleCode (r : Role) : Byte := BitVec.ofNat 8 r.number

/-- An event taken: the part becomes `h`, and the queue of commands and the counter of choices stay. -/
def took (s : State) (h : Hub) : Host.Outcome State Fault Refusal := .next { s with hub := h }

/-- An item answered: the part becomes `h`, with this reply entry built (R173). -/
def replied (s : State) (code : Byte) (h : Hub) (v : Verdict) (data : List Byte) : Host.Outcome State Fault Refusal :=
  took s { h with lastEntry := some ⟨code, ⟨v, data⟩⟩ }

/-- A lease at CLAIM_LEASE, in units of 10 ms (R49). -/
def fullLease (s : State) : Nat := s.hub.params.claimLease * 100

/-- A record whose motion has ended with the claim kept (R75). -/
def kept (s : State) (x : AxisRecord) (cause : EndCause) : AxisRecord :=
  { x with state := .claimed, lease := fullLease s, lastEnd := cause, flow := 0 }

/-- A record whose claim has been dropped (R45, R51, R58). -/
def dropped (x : AxisRecord) (cause : EndCause) : AxisRecord :=
  { x with state := .idle, holder := none, lastHolder := x.holder, lease := 0, lastEnd := cause, flow := 0 }

/-- An axis carries the LATE condition for a role (R55). -/
abbrev late (x : AxisRecord) (r : Role) : Prop := x.state = .idle ∧ x.lastHolder = some r ∧ x.lastEnd = .expired

/-- WAITING, MOVING or PAUSED. -/
abbrev inFlight (x : AxisRecord) : Prop := x.state = .waiting ∨ x.state = .moving ∨ x.state = .paused

/-- What an end of a motion, and the grants of the service after it, leave as it was. -/
def settingsKept (s t : State) : Prop :=
  t.pending = s.pending ∧ t.choices = s.choices ∧ t.hub.inputs = s.hub.inputs ∧ t.hub.map = s.hub.map ∧
    t.hub.params = s.hub.params ∧ t.hub.clock = s.hub.clock ∧ t.hub.control = s.hub.control ∧
    t.hub.counter = s.hub.counter ∧ t.hub.ports = s.hub.ports ∧ t.hub.handler = s.hub.handler ∧
    t.hub.heldOrder = s.hub.heldOrder ∧ t.hub.tracker.cradle = s.hub.tracker.cradle ∧
    t.hub.tracker.log = s.hub.tracker.log ∧ t.hub.tracker.nextNumber = s.hub.tracker.nextNumber ∧
    t.hub.tracker.transit = s.hub.tracker.transit ∧ t.hub.tracker.stopwatch = s.hub.tracker.stopwatch ∧
    ∀ r, (t.hub.notices.get r).enable = (s.hub.notices.get r).enable

/-- A kind is pending for a role. -/
def pendingFor (t : State) (n : Notice) (r : Role) : Prop := (t.hub.notices.get r).pending.getLsbD n.number = true

/-- Condition 1 of the permission test (R23): the axis's own zone allows the direction. -/
def ownZoneAllows (h : Hub) (a : Axis) (d : Direction) : Prop :=
  if (h.sense a).zone = .unknown then a = .ring ∧ (h.currentEntry a).kind = .openZone
  else ¬ ((h.currentEntry a).kind = .highEnd ∧ d = .extend) ∧ ¬ ((h.currentEntry a).kind = .lowEnd ∧ d = .retract)

/-- Another axis fails condition 2 or 3 of the permission test (R23). -/
def refuses (h : Hub) (a : Axis) (d : Direction) (b : Axis) : Prop :=
  b ≠ a ∧ (((h.currentEntry b).allow.towards b a).contains d = false ∨
    ((h.record b).state = .moving ∧ ((h.currentEntry a).allow.towards a b).contains (h.record b).direction = false))

/-- A log with a record appended, the oldest lost when 32 stand in it (R121). -/
def appended (log : List Bale) (b : Bale) : List Bale := (if 32 ≤ log.length then log.drop 1 else log) ++ [b]

/-- A record as the log takes it (R121): its drop time set, DROPPED when the drop was planned and UNPLANNED in its stage else, and
LOG_DISPLACED when the log was full. -/
def intoLog (s : State) (b : Bale) (planned : Bool) : Bale :=
  { b with
    stage := if planned then .dropped else b.stage,
    flags := { b.flags with
      unplanned := b.flags.unplanned || !planned,
      logDisplaced := b.flags.logDisplaced || decide (32 ≤ s.hub.tracker.log.length) },
    dropTime := some s.hub.clock.seconds }

/-- The motion of `a` has ended and its record is `y`, and the service has followed (R90): valve off, out of the grant order and of
the queue, its notice posted to the holder it had and to CT; of the other axes only those that waited may have changed, by the
service. -/
def ended (s t : State) (a : Axis) (y : AxisRecord) : Prop :=
  t.hub = { (endedHub s.hub a y).service with lastEntry := t.hub.lastEntry } ∧ t.hub.record a = y ∧
    t.hub.claims.valves.get a = .off ∧ a ∉ t.hub.arbiter.grantOrder ∧ (∀ e, e ∈ t.hub.arbiter.queue → e.axis ≠ a) ∧ pendingFor t (.axis a) .ct ∧
    (∀ r, (s.hub.record a).holder = some r → pendingFor t (.axis a) r) ∧
    (∀ b, b ≠ a → (s.hub.record b).state ≠ .waiting → (s.hub.record b).state ≠ .paused →
      t.hub.record b = s.hub.record b ∧ t.hub.claims.valves.get b = s.hub.claims.valves.get b) ∧
    t.hub.sampler = s.hub.sampler ∧ settingsKept s t

/-- The claim table, the arbiter and the valves agree: the premise that rules out states no run reaches. -/
def sound (s : State) : Prop := s.hub.motionAgrees ∧ s.hub.valvesAgree

/-- The target a MOVE carries (R180). -/
def targetOf (v : Half) : Target := if v = 0xFFFF#16 then .run else .to v.toNat

end Sys2Proof.Machine.Says

open Sys2Proof.Machine.Says

/-! ### Steps -/

/-- A step takes the command at the front of the queue and runs it on the queue's rest. -/
def Obligations.StepTakesTheFrontCommand : Prop :=
  ∀ (c : Instr) (rest : List Instr) (s : State), step { s with pending := c :: rest } = exec c { s with pending := rest }

/-- On an empty queue nothing is due, and 10 ms pass: leases (R49), wait timers (R85), the net timers (R127, R128), the transit timer
(R109) and the edge timer (R13) count one unit down, the stopwatch counts a second at each full one and makes the bale TABLE_LATE
at its limit (R115, R116), and the clock's second goes one unit on (R156). That time passes so is the model's choice (log 2), and so
is that a timer that has counted to 0 rests there until its expiry is taken (log 21). -/
def Sys2Proof.Machine.Says.tenMillisecondsPass : Prop :=
  ∀ s : State, s.pending = [] → s.hub.dueCommands = [] → ∃ t, step s = .next t ∧ t.pending = [] ∧
    (∀ a, t.hub.record a = if (s.hub.record a).state = .idle then s.hub.record a else
      { s.hub.record a with lease := (s.hub.record a).lease - 1 }) ∧
    t.hub.arbiter.queue = s.hub.arbiter.queue.map (fun e => { e with left := e.left - 1 }) ∧
    t.hub.counter = { s.hub.counter with
      startTimer := s.hub.counter.startTimer.map (· - 1), gapTimer := s.hub.counter.gapTimer.map (· - 1) } ∧
    t.hub.tracker.transit = s.hub.tracker.transit.map (· - 1) ∧
    (∀ w b n, s.hub.tracker.stopwatch = some w → s.hub.tracker.cradle = some b → b.cradleWait = some n →
      if w.phase < 99 then
        t.hub.tracker.stopwatch = some { w with phase := w.phase + 1 } ∧ t.hub.tracker.cradle = some b
      else t.hub.tracker.stopwatch = some { w with phase := 0 } ∧
        t.hub.tracker.cradle = some { b with
          cradleWait := some (min (n + 1) 65535),
          flags := { b.flags with tableLate := b.flags.tableLate || decide (w.limit ≤ min (n + 1) 65535) } } ∧
        (w.limit ≤ min (n + 1) 65535 → b.flags.tableLate = false → ∀ r, pendingFor t .tableLate r)) ∧
    (¬ (∃ w b, s.hub.tracker.stopwatch = some w ∧ s.hub.tracker.cradle = some b ∧ 99 ≤ w.phase ∧
      b.flags.tableLate = false ∧ w.limit ≤ min (b.cradleWait.getD 0 + 1) 65535) → t.hub.notices = s.hub.notices) ∧
    t.hub.sampler = { s.hub.sampler with
      edgeTimer := match s.hub.sampler.edgeTimer with | .running n => .running (n - 1) | x => x } ∧
    t.hub.clock = { s.hub.clock with phase := s.hub.clock.phase + 1 } ∧
    t.hub.params = s.hub.params ∧ t.hub.map = s.hub.map ∧ t.hub.control = s.hub.control ∧
    t.hub.claims.valves = s.hub.claims.valves

/-- On an empty queue with a timer run out, a step takes one of the due commands, which one being free, and advances the model's
counter of choices (log 2, log 3). A command is due exactly when its timer has run out or its second is full. -/
def Sys2Proof.Machine.Says.aDueCommandIsTaken : Prop :=
  (∀ s : State, s.pending = [] → s.hub.dueCommands ≠ [] →
    ∃ c, c ∈ s.hub.dueCommands ∧ step s = exec c { s with choices := s.choices + 1 }) ∧
  ∀ (h : Hub) (c : Instr), c ∈ h.dueCommands ↔
    (∃ a, c = .leaseExpiry a ∧ (h.record a).state ≠ .idle ∧ (h.record a).lease = 0) ∨
    (∃ e, e ∈ h.arbiter.queue ∧ e.left = 0 ∧ c = .waitTimeout e.axis) ∨
    (c = .netStartTimeout ∧ h.counter.startTimer = some 0) ∨ (c = .netGapTimeout ∧ h.counter.gapTimer = some 0) ∨
    (c = .transitTimeout ∧ h.tracker.transit = some 0) ∨
    (c = .inclinometerTimeout ∧ h.sampler.edgeTimer = .running 0) ∨ (c = .fieldClockTick ∧ 100 ≤ h.clock.phase)

/-- A step on an empty queue: 10 ms pass, or a due command is taken. The model's choice: when time passes (log 2), the order of the
due commands (log 3), and the rest at 0 of a timer that has run out until its expiry is taken (log 21). -/
def Obligations.TenMillisecondsPassOnAnEmptyQueue : Prop :=
  tenMillisecondsPass ∧ aDueCommandIsTaken

/-- Every command is taken in every state: none faults or is refused, and a command changes nothing of the queue behind it. -/
def Obligations.EveryCommandIsTaken : Prop :=
  ∀ (c : Instr) (s : State), ∃ t, exec c s = .next t ∧ t.pending = s.pending ∧ t.choices = s.choices

/-- An item that is refused changes nothing of the part but the reply entry just built (R172 and the rules of the items). -/
def Obligations.RefusedItemsChangeNothing : Prop :=
  ∀ (i : Instr) (code : Byte) (f : Hub → Hub × Answer) (s t : State), itemOf i = some (code, f) → exec i s = .next t →
    (∃ e, t.hub.lastEntry = some e ∧ e.answer.verdict.isRefusal = true) →
    t = { s with hub := { s.hub with lastEntry := t.hub.lastEntry } }

/-! ### Power-on, reset and the clock -/

/-- Power-on with the stop chain closed: every block at its power-on value, and the input levels taken without an edge. -/
def Sys2Proof.Machine.Says.powerOnSetsEveryBlock : Prop :=
  ∀ (s : State) (l : Levels), l.stop = false → exec (.powerOn l) s = took s { State.reset.hub with inputs := l }

/-- Power-on with the stop chain open: STOPPED with the latch set and STOP_LATCHED pending on all three ports; every other
block as after any power-on. -/
def Sys2Proof.Machine.Says.powerOnWithTheChainOpen : Prop :=
  ∀ (s : State) (l : Levels), l.stop = true →
    exec (.powerOn l) s = took s { State.reset.hub with
      inputs := l,
      control := { mode := .stopped, stopLatch := true, mapChecked := false, lastReset := .powerOn, restartPending := false },
      notices := ⟨⟨Notice.stopLatched.bit, 0#17, false⟩, ⟨Notice.stopLatched.bit, 0#17, false⟩,
        ⟨Notice.stopLatched.bit, 0#17, false⟩⟩ }

/-- The blocks at reset: axis records, valves, positions and ring (R17), zone map (R19), arbiter (R82, R83), tracker (R99, R101,
R109, R115, R117), layer counter (R124), notice sets (R150), parameters (R151), clock (R156), mode (R157) and ports (R177). -/
def Sys2Proof.Machine.Says.resetState : Prop :=
  let h := State.reset.hub
  (∀ a, h.record a = ⟨.idle, none, none, .extend, .to 0, .normal, 5, 0, .none, 0⟩ ∧ h.claims.valves.get a = .off) ∧
    (∀ a, (h.sense a).position = 0 ∧ (h.sense a).valid = false ∧ (h.sense a).zone = .unknown) ∧
    h.sampler.ringReferenced = false ∧ h.sampler.slopeValid = false ∧ h.sampler.sampledSlopeValid = false ∧
    (∀ a, (h.map.get a).bounds = ⟨0, 0, 0, 0, 0, 0, 0⟩ ∧
      ∀ z, (h.map.get a).entries.get z = ⟨.openZone, ⟨.none, .none, .none, .none, .none⟩⟩) ∧
    h.arbiter = ⟨0, [], []⟩ ∧
    h.tracker = { chamber := none, cradle := none, table := none, log := [], nextNumber := 1, transit := none,
                  stopwatch := none, feedHold := false } ∧
    h.counter = { watch := .off, startTimer := none, gapTimer := none, dispenserA := .ready, dispenserB := .ready } ∧
    (∀ r, h.notices.get r = ⟨0#17, 0#17, false⟩) ∧
    (∀ a, h.params.demand.get a = 0 ∧ h.params.urgentOk.get a = false ∧ h.params.claimants.get a = 0#3 ∧
      h.params.tolerance.get a = 8) ∧
    h.params.flowBudget = 0 ∧ h.params.ringPark = 0 ∧ h.params.slopeLimit = 120 ∧ h.params.claimLease = 30 ∧
    h.params.waitLimit = 10 ∧ h.params.netTarget = 40 ∧ h.params.netStartLimit = 5 ∧ h.params.netGapLimit = 10 ∧
    h.params.filmTarget = 24 ∧ h.params.tableLateLimit = 90 ∧ h.clock.seconds = 0#32 ∧
    h.control = { mode := .setup, stopLatch := false, mapChecked := false, lastReset := .powerOn,
                  restartPending := false } ∧
    (∀ r, h.ports.get r = ⟨.waitMark, false, none⟩) ∧ h.handler = .free ∧ h.heldOrder = []

/-- The output pins (R183): each follows its output once a sample has been taken since power-on, an attention line being active low;
until then the enables and FEED HOLD are low and the attention lines high. Power-on alone ends that condition, and a sample alone
begins it. -/
def Sys2Proof.Machine.Says.pinsFollowTheState : Prop :=
  (∀ h : Hub, h.sampler.sampled = true → h.pins.valves = h.claims.valves ∧ h.pins.feedHold = h.tracker.feedHold ∧
    ∀ r, h.pins.attention.get r = true ↔ (h.notices.get r).line = false) ∧
  (∀ h : Hub, h.sampler.sampled = false → (∀ a, h.pins.valves.get a = ⟨false, false⟩) ∧ h.pins.feedHold = false ∧
    ∀ r, h.pins.attention.get r = true) ∧
  (∀ (s : State) (l : Levels), ∃ t, exec (.powerOn l) s = .next t ∧ t.hub.sampler.sampled = false) ∧
  (∀ (s : State) (volts : Voltages), ∃ t, exec (.sample volts) s = .next t ∧ t.hub.sampler.sampled = true) ∧
  ∀ (s : State) (c : Instr), (∀ l, c ≠ .powerOn l) → (∀ volts, c ≠ .sample volts) →
    ∃ t, exec c s = .next t ∧ t.hub.sampler.sampled = s.hub.sampler.sampled

/-- Power-on with the stop chain closed and open, and the values right after it (R17, R19, R150, R151, R157, R177, R183, R186). -/
def Obligations.PowerOnAndReset : Prop :=
  powerOnSetsEveryBlock ∧ powerOnWithTheChainOpen ∧ resetState ∧ pinsFollowTheState

/-- The transit timer runs out (R111, R121): the CARRIED record is logged in its stage with UNPLANNED, a full log losing its oldest
record to it, the stopwatch stops, BALE_MOVED and SENSOR_FAULT go to all three roles, and LOG_HIGH to CT when 23 records become 24. -/
def Sys2Proof.Machine.Says.transitTimerRunsOut : Prop :=
  ∀ (s : State) (left : Nat) (b : Bale), s.hub.tracker.transit = some left → s.hub.tracker.cradle = some b →
    ∃ t, exec .transitTimeout s = .next t ∧
      t.hub.tracker = { s.hub.tracker with
        cradle := none, transit := none, stopwatch := none, log := appended s.hub.tracker.log (intoLog s b false) } ∧
      (∀ r, pendingFor t .baleMoved r ∧ pendingFor t .sensorFault r) ∧
      (s.hub.tracker.log.length = 23 → pendingFor t .logHigh .ct) ∧
      (s.hub.tracker.log.length ≠ 23 → ∀ r, pendingFor t .logHigh r ↔ pendingFor s .logHigh r) ∧
      t.hub.claims = s.hub.claims ∧ t.hub.arbiter = s.hub.arbiter ∧ t.hub.counter = s.hub.counter

/-- The stopwatch at its limit (R116): a bale without the flag gains TABLE_LATE, posted to all three roles, and the stopwatch
counts on. -/
def Sys2Proof.Machine.Says.stopwatchReachesItsLimit : Prop :=
  ∀ (s : State) (w : Stopwatch) (b : Bale) (n : Nat), s.hub.tracker.stopwatch = some w → s.hub.tracker.cradle = some b →
    b.cradleWait = some n → w.limit ≤ n → b.flags.tableLate = false →
    exec .tableLate s = took s ({ s.hub with tracker := { s.hub.tracker with
      cradle := some { b with flags := { b.flags with tableLate := true } } } }.postTo .tableLate [.ch, .wr, .ct])

/-- The stopwatch at its limit again, for a bale that carries TABLE_LATE already (R116): nothing further is set or posted. -/
def Sys2Proof.Machine.Says.aLateBaleIsNotPostedAgain : Prop :=
  ∀ (s : State) (w : Stopwatch) (b : Bale) (n : Nat), s.hub.tracker.stopwatch = some w → s.hub.tracker.cradle = some b →
    b.cradleWait = some n → w.limit ≤ n → b.flags.tableLate = true → exec .tableLate s = took s s.hub

/-- A full second of the field clock: the count rises by one, from 4294967295 to 0, and nothing else changes but the part of the
second, which begins anew. -/
def Sys2Proof.Machine.Says.fieldClockRisesByOne : Prop :=
  ∀ s : State, exec .fieldClockTick s = took s { s.hub with clock := ⟨s.hub.clock.seconds + 1#32, 0⟩ }

/-- The transit timer, the cradle-wait stopwatch and the field clock (R111, R116, R121, R156). -/
def Obligations.TrackerTimersAndClock : Prop :=
  transitTimerRunsOut ∧ stopwatchReachesItsLimit ∧ aLateBaleIsNotPostedAgain ∧ fieldClockRisesByOne

/-! ### The position sampler -/

/-- The reading of a position input (R183): linear in the voltage, a whole step exact, 3.0 V or more the greatest reading, and for a
voltage between two readings one of the two (which one is free, log 20). -/
def Sys2Proof.Machine.Says.voltagesAreConverted : Prop :=
  (∀ n : Nat, n ≤ 4095 → rawReading (1000 * n) = n) ∧ (∀ v : Voltage, 4095000 ≤ v → rawReading v = 4095) ∧
  (∀ v : Voltage, v < 4095000 → rawReading v = v / 1000 ∨ rawReading v = v / 1000 + 1) ∧
  ∀ (h : Hub) (volts : Voltages), h.captured volts .flap = rawReading volts.flap ∧
    h.captured volts .tailgate = rawReading volts.tailgate ∧ h.captured volts .cradle = rawReading volts.cradle ∧
    h.captured volts .tilt = rawReading volts.tilt ∧ h.captured volts .cutter = rawReading volts.cutter

/-- A sample derives position, validity and zone of every axis from its reading, and the ring's from its encoder. -/
def Sys2Proof.Machine.Says.sampleDerivesPositionsAndZones : Prop :=
  ∀ (s : State) (volts : Voltages), ∃ t, exec (.sample volts) s = .next t ∧
    (∀ (a : Axis) (raw : Nat), a ≠ .ring → raw = s.hub.captured volts a →
      if 16 ≤ raw ∧ raw ≤ 4079 then
        (t.hub.sense a).position = raw ∧ (t.hub.sense a).valid = true ∧
          (t.hub.sense a).zone.code = ((s.hub.map.get a).bounds.toList.filter (· ≤ raw)).length
      else (t.hub.sense a).position = (s.hub.sense a).position ∧ (t.hub.sense a).valid = false ∧
        (t.hub.sense a).zone = .unknown) ∧
    (t.hub.sense .ring).position = s.hub.sampler.ringPosition ∧
    (t.hub.sense .ring).valid = s.hub.sampler.ringReferenced ∧
    (if s.hub.sampler.ringReferenced then (t.hub.sense .ring).zone.code =
        ((s.hub.map.get .ring).bounds.toList.filter (· ≤ s.hub.sampler.ringPosition)).length
      else (t.hub.sense .ring).zone = .unknown) ∧
    t.hub.sampler.sampledSlope = s.hub.sampler.slope ∧ t.hub.sampler.sampledSlopeValid = s.hub.sampler.slopeValid ∧
    settingsKept s t

/-- A linear axis that becomes invalid at a sample posts SENSOR_FAULT to all three roles. -/
def Sys2Proof.Machine.Says.losingAPositionPostsSensorFault : Prop :=
  ∀ (s : State) (volts : Voltages) (a : Axis), a ≠ .ring → (s.hub.captured volts a < 16 ∨ 4079 < s.hub.captured volts a) →
    (s.hub.sense a).valid = true ∨ s.hub.sampler.fresh = true →
    ∃ t, exec (.sample volts) s = .next t ∧ ∀ r, pendingFor t .sensorFault r

/-- A sample at which every linear axis out of range was invalid before, and is not the first one, posts no SENSOR_FAULT, whatever
the ring's reference (R4, R8). -/
def Sys2Proof.Machine.Says.stayingInvalidPostsNothing : Prop :=
  ∀ (s : State) (volts : Voltages),
    (∀ a, a ≠ .ring → (16 ≤ s.hub.captured volts a ∧ s.hub.captured volts a ≤ 4079) ∨
      ((s.hub.sense a).valid = false ∧ s.hub.sampler.fresh = false)) →
    ∃ t, exec (.sample volts) s = .next t ∧ ∀ r, pendingFor t .sensorFault r ↔ pendingFor s .sensorFault r

/-- The conversion of the inputs, what a sample derives, and the notice of a position lost (R2 to R4, R8, R9, R183). -/
def Obligations.SampleDerivesItsValues : Prop :=
  voltagesAreConverted ∧ sampleDerivesPositionsAndZones ∧ losingAPositionPostsSensorFault ∧ stayingInvalidPostsNothing

/-- The record a sample leaves an axis with, `h` holding the values of this sample: the ends of motion in their order of precedence,
SENSOR, LIMIT, BLOCKED, SLOPE, ARRIVED (R29, R31 to R35, R73). -/
def Sys2Proof.Machine.Says.afterSample (s : State) (h : Hub) (a : Axis) : AxisRecord :=
  let x := s.hub.record a
  let changed := fun b => (h.sense b).zone ≠ (s.hub.sense b).zone ∨ (h.sense b).valid ≠ (s.hub.sense b).valid
  let slopeBad := h.sampler.sampledSlopeValid = false ∨ s.hub.params.slopeLimit < h.sampler.sampledSlope.natAbs
  let kind := (h.currentEntry a).kind
  if x.state ≠ .moving then x
  else if changed a ∧ (h.sense a).valid = false then kept s x .sensor
  else if changed a ∧ ((kind = .highEnd ∧ x.direction = .extend) ∨ (kind = .lowEnd ∧ x.direction = .retract)) then
    kept s x .limit
  else if Axis.list.any (fun b => b ≠ a ∧ changed b ∧
      ((h.currentEntry b).allow.towards b a).contains x.direction = false) = true then kept s x .blocked
  else if a = .tilt ∧ x.direction = .extend ∧ slopeBad then kept s x .slope
  else
    match x.target with
    | .run => x
    | .to g =>
      if a = .ring then
        if (h.sense .ring).valid = true ∧
            circularDistance (h.sense .ring).position g ≤ s.hub.params.tolerance.get .ring then kept s x .arrived
        else x
      else if x.direction = .extend then
        if g ≤ (h.sense a).position + s.hub.params.tolerance.get a then kept s x .arrived else x
      else if (h.sense a).position ≤ g + s.hub.params.tolerance.get a then kept s x .arrived else x

/-- The ends of motion at a sample, in their order of precedence, and the axes a sample leaves alone. -/
def Sys2Proof.Machine.Says.sampleEndsMotions : Prop :=
  ∀ (s : State) (volts : Voltages), s.hub.motionAgrees → ∃ t, exec (.sample volts) s = .next t ∧
    ∀ a, (s.hub.record a).state ≠ .waiting → (s.hub.record a).state ≠ .paused →
      t.hub.record a = afterSample s t.hub a

/-- The ends of a sample are applied together and ONE service follows them (R35, R74, R90): with `k` the part after them, the ended
axes have their valve off, their flow returned and their notice posted to holder and CT, the waiting ones stand as they were, and
the outcome is the service of `k`, or `k` itself when no motion ended. -/
def Sys2Proof.Machine.Says.oneServiceFollowsTheEnds : Prop :=
  ∀ (s : State) (volts : Voltages), s.hub.motionAgrees → ∃ (t : State) (k : Hub), exec (.sample volts) s = .next t ∧
    k.sampler = t.hub.sampler ∧ (∀ a, k.record a = afterSample s k a) ∧
    (∀ a, k.claims.valves.get a =
      if (s.hub.record a).state = .moving ∧ (k.record a).state ≠ .moving then .off else s.hub.claims.valves.get a) ∧
    k.arbiter.grantOrder = s.hub.arbiter.grantOrder.filter (fun a => (k.record a).state = .moving) ∧
    k.arbiter.inUse = (k.arbiter.grantOrder.map s.hub.params.demand.get).sum ∧ k.arbiter.queue = s.hub.arbiter.queue ∧
    (∀ a, (s.hub.record a).state = .moving → (k.record a).state ≠ .moving →
      posted k (.axis a) .ct ∧ ∀ r, (s.hub.record a).holder = some r → posted k (.axis a) r) ∧
    k.tracker = s.hub.tracker ∧ settingsKept s { t with hub := k } ∧
    ((∃ a, (s.hub.record a).state = .moving ∧ (k.record a).state ≠ .moving) → t.hub = k.service) ∧
    ((∀ a, (s.hub.record a).state = .moving → (k.record a).state = .moving) → t.hub = k)

/-- The ends of motion at a sample, and the one service after them (R29, R31 to R35, R73, R74, R90). -/
def Obligations.SampleEndsMotions : Prop :=
  sampleEndsMotions ∧ oneServiceFollowsTheEnds

/-- A count without index (R5). -/
def Sys2Proof.Machine.Says.ringCountIsTaken : Prop :=
  ∀ s : State,
    exec .ringCount s =
      if s.hub.sampler.ringReferenced = false then took s s.hub
      else if s.hub.sampler.ringPosition < 719 then
        took s { s.hub with sampler := { s.hub.sampler with ringPosition := s.hub.sampler.ringPosition + 1 } }
      else took s { s.hub with sampler := { s.hub.sampler with ringPosition := 0 } }.revolution

/-- A count with index (R6). -/
def Sys2Proof.Machine.Says.ringIndexCountIsTaken : Prop :=
  ∀ s : State,
    let h := { s.hub with sampler := { s.hub.sampler with ringReferenced := true, ringPosition := 0 } }
    exec .ringIndexCount s =
      if s.hub.sampler.ringReferenced = true ∧ 360 ≤ s.hub.sampler.ringPosition then took s h.revolution else took s h

/-- Ring counts without and with index (R5, R6). -/
def Obligations.RingCountsAreTaken : Prop :=
  ringCountIsTaken ∧ ringIndexCountIsTaken

/-- A rising edge that completes a measurable period gives the slope of its duty, or makes the slope invalid. The duty stands for
high time over period, in units of 0.1 %, wherever it lies nearer to one unit than to the next. -/
def Sys2Proof.Machine.Says.slopeIsMeasured : Prop :=
  ∀ (s : State) (high elapsed duty : Nat), s.hub.sampler.period = .lowPart high false → 0 < elapsed → elapsed ≤ 100000 →
    2 * duty * (high + elapsed) < 2000 * high + (high + elapsed) →
    2000 * high < 2 * duty * (high + elapsed) + (high + elapsed) →
    exec (.inclinometerEdge true elapsed) s =
      took s { s.hub with sampler := { s.hub.sampler with
        slope := if 100 ≤ duty ∧ duty ≤ 900 then (duty : Int) - 500 else s.hub.sampler.slope,
        slopeValid := if 100 ≤ duty ∧ duty ≤ 900 then true else false,
        period := .highPart false, edgeTimer := .running 10 } }

/-- A period that is being measured when the edge timer runs out: it is not measurable any more (R12). -/
def Sys2Proof.Machine.Says.spoilt : Period → Period
  | .noPeriod => .noPeriod
  | .highPart _ => .highPart true
  | .lowPart high _ => .lowPart high true

/-- What a falling edge makes of the period in progress (R12): it ends the high part, and a second one in a period makes it not
measurable (the model's reading, log 6). -/
def Sys2Proof.Machine.Says.divided (elapsed : Nat) : Period → Period
  | .noPeriod => .noPeriod
  | .highPart bad => .lowPart elapsed bad
  | .lowPart high _ => .lowPart high true

/-- The edge timer runs out: the slope becomes invalid and keeps its value, and the period in progress is not measurable. -/
def Sys2Proof.Machine.Says.edgeTimerRunsOut : Prop :=
  ∀ (s : State) (left : Nat), s.hub.sampler.edgeTimer = .running left →
    exec .inclinometerTimeout s = took s { s.hub with sampler := { s.hub.sampler with
      slopeValid := false, edgeTimer := .ranOut, period := spoilt s.hub.sampler.period } }

/-- A falling edge within 100 ms divides the period in progress, whatever part it stands in, and a rising edge within 100 ms that ends
no measurable period begins the next; neither touches the slope or its validity, and each restarts the edge timer. -/
def Sys2Proof.Machine.Says.edgesBeginAndDivideThePeriod : Prop :=
  ∀ (s : State) (elapsed : Nat), elapsed ≤ 100000 →
    let goesOn := fun p : Period => took s { s.hub with sampler := { s.hub.sampler with period := p, edgeTimer := .running 10 } }
    exec (.inclinometerEdge false elapsed) s = goesOn (divided elapsed s.hub.sampler.period) ∧
    ((∀ high, s.hub.sampler.period ≠ .lowPart high false) →
      exec (.inclinometerEdge true elapsed) s = goesOn (.highPart false))

/-- An edge more than 100 ms after the one before (the model's reading, log 6): a rising edge begins the next period and measures
none, a falling edge divides a period that is not measurable any more, and each restarts the edge timer. With the timer still running its
expiry comes first, so that the slope becomes invalid; with the expiry taken before, or no edge yet, the validity stays as it stands.
The slope keeps its value. -/
def Sys2Proof.Machine.Says.lateEdgesFindTheTimerRunOut : Prop :=
  ∀ (s : State) (elapsed : Nat), 100000 < elapsed →
    let m := s.hub.sampler
    let finds := fun (valid : Bool) (p : Period) =>
      took s { s.hub with sampler := { m with slopeValid := valid, edgeTimer := .running 10, period := p } }
    ((∃ left, m.edgeTimer = .running left) →
      exec (.inclinometerEdge true elapsed) s = finds false (.highPart false) ∧
      exec (.inclinometerEdge false elapsed) s = finds false (divided elapsed (spoilt m.period))) ∧
    (m.edgeTimer = .ranOut ∨ m.edgeTimer = .stopped →
      exec (.inclinometerEdge true elapsed) s = finds m.slopeValid (.highPart false) ∧
      exec (.inclinometerEdge false elapsed) s = finds m.slopeValid (divided elapsed (spoilt m.period)))

/-- The inclinometer: its edges, a measurable period, and the edge timer running out (R12, R13). -/
def Obligations.InclinometerIsTaken : Prop :=
  slopeIsMeasured ∧ edgesBeginAndDivideThePeriod ∧ lateEdgesFindTheTimerRunOut ∧ edgeTimerRunsOut

/-! ### The zone map and the gates -/

/-- The permission test passes exactly when the own zone, the other axes' zones and the other axes' motions permit it. -/
def Obligations.PermissionTest : Prop :=
  ∀ (h : Hub) (a : Axis) (d : Direction), h.permitted a d = true ↔
    (if (h.sense a).zone = .unknown then a = .ring ∧ (h.currentEntry a).kind = .openZone
      else ¬ ((h.currentEntry a).kind = .highEnd ∧ d = .extend) ∧ ¬ ((h.currentEntry a).kind = .lowEnd ∧ d = .retract)) ∧
    (∀ b, b ≠ a → ((h.currentEntry b).allow.towards b a).contains d = true) ∧
    ∀ b, b ≠ a → (h.record b).state = .moving →
      ((h.currentEntry a).allow.towards a b).contains (h.record b).direction = true

/-- The four bale gates, and the motions that have none. -/
def Obligations.BaleGates : Prop :=
  ∀ (h : Hub) (t : Target),
    (h.gateHolds .tailgate .extend t = true ↔
      (h.tracker.chamber = none ∨ h.tracker.stageAt .chamber = some .bound ∨ h.tracker.stageAt .chamber = some .ejecting) ∧
        h.tracker.cradle = none) ∧
    (h.gateHolds .cradle .extend t = true ↔ h.tracker.table = none) ∧
    (h.gateHolds .tilt .extend t = true ↔
      (h.tracker.table = none ∨ h.tracker.stageAt .table = some .wrapped ∨ h.tracker.stageAt .table = some .dropping) ∧
        (h.sampler.sampledSlopeValid = true ∧ h.sampler.sampledSlope.natAbs ≤ h.params.slopeLimit) ∧
        h.tracker.log.length < 32) ∧
    (∀ d, h.gateHolds .ring d .run = true ↔ h.tracker.stageAt .table = some .wrapping ∧
      (h.counter.dispenserA = .ready ∨ h.counter.dispenserB = .ready)) ∧
    (∀ a v, h.gateHolds a .retract (.to v) = true) ∧
    (∀ d v, h.gateHolds .flap d t = true ∧ h.gateHolds .cutter d t = true ∧ h.gateHolds .ring d (.to v) = true)

/-- ZONE_GET gives the boundaries or an entry, changes nothing, and refuses a bad axis or selector. -/
def Sys2Proof.Machine.Says.zoneGetIsTaken : Prop :=
  ∀ (s : State) (r : Role),
    (∀ axis sel : Byte, 5 < axis.toNat ∨ 9 < sel.toNat → exec (.zoneGet r axis sel) s = replied s 0x33#8 s.hub .badValue []) ∧
    (∀ a, exec (.zoneGet r (axisCode a) 9#8) s =
      replied s 0x33#8 s.hub .ok (axisCode a :: 9#8 :: (s.hub.map.get a).bounds.toList.flatMap u16)) ∧
    ∀ (a : Axis) (z : Zone), exec (.zoneGet r (axisCode a) (BitVec.ofNat 8 z.code)) s =
      replied s 0x33#8 s.hub .ok (axisCode a :: BitVec.ofNat 8 z.code :: ((s.hub.map.get a).entries.get z).chars)

/-- ZONE_SET BOUNDS: the three checks in order, then the seven boundaries replaced together and the map-checked flag cleared. -/
def Sys2Proof.Machine.Says.zoneSetBoundsIsTaken : Prop :=
  ∀ (s : State) (r : Role) (b : BoundArgs),
    let bad := fun axis => exec (.zoneSetBounds r axis b) s = replied s 0x34#8 s.hub
      (if r ≠ .ct then .notAllowed else if s.hub.control.mode ≠ .setup then .wrongMode else .badValue) []
    (∀ axis : Byte, 5 < axis.toNat → bad axis) ∧
    ∀ a, if r ≠ .ct ∨ s.hub.control.mode ≠ .setup ∨
          (argBounds b).toList.any (fun v => if a = .ring then 719 < v else 4095 < v) = true then bad (axisCode a)
      else exec (.zoneSetBounds r (axisCode a) b) s = replied s 0x34#8
        { s.hub with map := s.hub.map.set a { s.hub.map.get a with bounds := argBounds b },
                     control := { s.hub.control with mapChecked := false } } .ok []

/-- ZONE_SET ENTRY in SETUP from CT with codes in range: type and all five allow fields replaced together, the map-checked flag
cleared; from another role, in another mode or with a code out of range it is refused. -/
def Sys2Proof.Machine.Says.zoneSetEntryIsTaken : Prop :=
  ∀ (s : State) (r : Role),
    (∀ axis entry kind f, r ≠ .ct ∨ s.hub.control.mode ≠ .setup ∨ 5 < axis.toNat ∨ 8 < entry.toNat ∨ 3 < kind.toNat ∨
        3 < f.a0.toNat ∨ 3 < f.a1.toNat ∨ 3 < f.a2.toNat ∨ 3 < f.a3.toNat ∨ 3 < f.a4.toNat →
      exec (.zoneSetEntry r axis entry kind f) s = replied s 0x35#8 s.hub
        (if r ≠ .ct then .notAllowed else if s.hub.control.mode ≠ .setup then .wrongMode else .badValue) []) ∧
    ∀ (a : Axis) (z : Zone) (k : ZoneType) (f : AllowFields), r = .ct → s.hub.control.mode = .setup →
      exec (.zoneSetEntry r (axisCode a) (BitVec.ofNat 8 z.code) (BitVec.ofNat 8 k.code)
        ⟨BitVec.ofNat 8 f.a0.code, BitVec.ofNat 8 f.a1.code, BitVec.ofNat 8 f.a2.code, BitVec.ofNat 8 f.a3.code,
          BitVec.ofNat 8 f.a4.code⟩) s = replied s 0x35#8
        { s.hub with
          map := s.hub.map.set a { s.hub.map.get a with entries := (s.hub.map.get a).entries.set z ⟨k, f⟩ },
          control := { s.hub.control with mapChecked := false } } .ok []

/-- ZONE_GET and both forms of ZONE_SET (R36 to R39). -/
def Obligations.ZoneItemsAreTaken : Prop :=
  zoneGetIsTaken ∧ zoneSetBoundsIsTaken ∧ zoneSetEntryIsTaken

/-! ### Claims and leases -/

/-- CLAIM (R42, with the data of R59). -/
def Obligations.ClaimIsTaken : Prop :=
  ∀ (s : State) (r : Role),
    (∀ axis : Byte, 5 < axis.toNat → exec (.claim r axis) s = replied s 0x11#8 s.hub .badValue []) ∧
    ∀ a : Axis,
      let x := s.hub.record a
      exec (.claim r (axisCode a)) s =
        if s.hub.control.mode ≠ .run then replied s 0x11#8 s.hub .wrongMode x.claimData
        else if (s.hub.params.claimants.get a).getLsbD r.number = false then replied s 0x11#8 s.hub .notAllowed x.claimData
        else if x.state = .idle then
          let y := { x with state := .claimed, holder := some r, lease := fullLease s }
          replied s 0x11#8 (s.hub.setRecord a y) .ok y.claimData
        else if x.holder = some r then
          let y := { x with lease := if x.state = .moving then x.holdTime else fullLease s }
          replied s 0x11#8 (s.hub.setRecord a y) .ok y.claimData
        else replied s 0x11#8 s.hub .busy x.claimData

/-- REFRESH (R48, with the data of R59). -/
def Sys2Proof.Machine.Says.refreshIsTaken : Prop :=
  ∀ (s : State) (r : Role),
    (∀ axis : Byte, 5 < axis.toNat → exec (.refresh r axis) s = replied s 0x14#8 s.hub .badValue []) ∧
    ∀ a : Axis,
      let x := s.hub.record a
      (late x r → exec (.refresh r (axisCode a)) s = replied s 0x14#8 s.hub .late x.claimData) ∧
      (¬ late x r → x.holder ≠ some r → exec (.refresh r (axisCode a)) s = replied s 0x14#8 s.hub .notHolder x.claimData) ∧
      (x.holder = some r → x.state ≠ .idle →
        let y := { x with lease := if x.state = .moving then x.holdTime else fullLease s }
        exec (.refresh r (axisCode a)) s = replied s 0x14#8 (s.hub.setRecord a y) .ok y.claimData)

/-- HANDOVER (R46, R47, with the data of R59). -/
def Sys2Proof.Machine.Says.handoverIsTaken : Prop :=
  ∀ (s : State) (r : Role),
    (∀ axis p : Byte, 5 < axis.toNat ∨ 2 < p.toNat → exec (.handover r axis p) s = replied s 0x13#8 s.hub .badValue []) ∧
    ∀ (a : Axis) (p : Role),
      let x := s.hub.record a
      let y := { x with holder := some p, lease := fullLease s }
      exec (.handover r (axisCode a) (roleCode p)) s =
        if x.holder ≠ some r then replied s 0x13#8 s.hub .notHolder x.claimData
        else if p = r then replied s 0x13#8 s.hub .ok x.claimData
        else if x.state = .waiting ∨ x.state = .moving ∨ x.state = .paused then replied s 0x13#8 s.hub .busy x.claimData
        else if (s.hub.params.claimants.get a).getLsbD p.number = false then replied s 0x13#8 s.hub .notAllowed x.claimData
        else replied s 0x13#8 ((s.hub.setRecord a y).postTo (.axis a) [p, .ct]) .ok y.claimData

/-- REFRESH and HANDOVER (R46 to R48). -/
def Obligations.RefreshAndHandoverAreTaken : Prop :=
  refreshIsTaken ∧ handoverIsTaken

/-- RELEASE by a role that does not hold the axis, and of a CLAIMED axis by its holder (R44, R45). -/
def Sys2Proof.Machine.Says.releaseOfAClaimedAxis : Prop :=
  ∀ (s : State) (r : Role),
    (∀ axis : Byte, 5 < axis.toNat → exec (.release r axis) s = replied s 0x12#8 s.hub .badValue []) ∧
    ∀ a : Axis,
      let x := s.hub.record a
      let y := { x with state := .idle, holder := none, lastHolder := some r, lease := 0, lastEnd := .released }
      (late x r → exec (.release r (axisCode a)) s = replied s 0x12#8 s.hub .late x.claimData) ∧
      (¬ late x r → x.holder ≠ some r → exec (.release r (axisCode a)) s = replied s 0x12#8 s.hub .notHolder x.claimData) ∧
      (x.state = .claimed → x.holder = some r → exec (.release r (axisCode a)) s =
        replied s 0x12#8 ((s.hub.setRecord a y).postTo (.axis a) [r, .ct]) .ok y.claimData)

/-- RELEASE by the holder of a WAITING, MOVING or PAUSED axis ends the motion and drops the claim (R45). -/
def Sys2Proof.Machine.Says.releaseEndsTheMotion : Prop :=
  ∀ (s : State) (r : Role) (a : Axis), sound s → inFlight (s.hub.record a) → (s.hub.record a).holder = some r →
    ∃ t, exec (.release r (axisCode a)) s = .next t ∧ ended s t a (dropped (s.hub.record a) .released) ∧
      t.hub.lastEntry = some ⟨0x12#8, ⟨.ok, (dropped (s.hub.record a) .released).claimData⟩⟩

/-- RELEASE in every state of the axis (R44, R45). -/
def Obligations.ReleaseIsTaken : Prop :=
  releaseOfAClaimedAxis ∧ releaseEndsTheMotion

/-- The lease of a CLAIMED axis runs out (R51). -/
def Sys2Proof.Machine.Says.leaseOfAClaimedAxisRunsOut : Prop :=
  ∀ (s : State) (a : Axis) (r : Role), (s.hub.record a).state = .claimed → (s.hub.record a).holder = some r →
    exec (.leaseExpiry a) s = took s ((s.hub.setRecord a { s.hub.record a with
      state := .idle, holder := none, lastHolder := some r, lease := 0, lastEnd := .expired }).postTo (.axis a) [r, .ct])

/-- The lease of a WAITING, MOVING or PAUSED axis runs out: its motion ends and its claim is dropped (R52, R53). -/
def Sys2Proof.Machine.Says.leaseOfAMotionRunsOut : Prop :=
  ∀ (s : State) (a : Axis), sound s → inFlight (s.hub.record a) →
    ∃ t, exec (.leaseExpiry a) s = .next t ∧ ended s t a (dropped (s.hub.record a) .expired) ∧
      t.hub.lastEntry = s.hub.lastEntry

/-- The wait timer of an entry runs out: the entry goes and the axis is CLAIMED with WAIT_TIMEOUT (R94). -/
def Sys2Proof.Machine.Says.waitTimerRunsOut : Prop :=
  ∀ (s : State) (a : Axis), sound s → (∃ e ∈ s.hub.arbiter.queue, e.axis = a) →
    ∃ t, exec (.waitTimeout a) s = .next t ∧ ended s t a (kept s (s.hub.record a) .waitTimeout) ∧
      t.hub.lastEntry = s.hub.lastEntry

/-- The lease and the wait timer of an axis run out (R51 to R53, R94). -/
def Obligations.AxisTimersRunOut : Prop :=
  leaseOfAClaimedAxisRunsOut ∧ leaseOfAMotionRunsOut ∧ waitTimerRunsOut

/-- AXIS_READ gives the 21 characters of the axis record reply and changes nothing (R18, R181). That the ring reference character is
the encoder's present state is the model's reading (log 9). -/
def Sys2Proof.Machine.Says.axisReadIsTaken : Prop :=
  ∀ (s : State) (r : Role),
    (∀ axis : Byte, 5 < axis.toNat → exec (.axisRead r axis) s = replied s 0x18#8 s.hub .badValue []) ∧
    ∀ a : Axis,
      let x := s.hub.record a
      let n := s.hub.sense a
      let slope := BitVec.ofInt 16 s.hub.sampler.sampledSlope
      exec (.axisRead r (axisCode a)) s = replied s 0x18#8 s.hub .ok
        (u8 a.number ++ u8 x.state.code ++ u8 (holderCode x.holder) ++ u8 (holderCode x.lastHolder) ++ u8 x.direction.code
          ++ u16 x.target.code ++ u8 x.cls.code ++ u8 x.holdTime ++ u16 x.lease ++ u8 x.lastEnd.code ++ u8 x.flow
          ++ u16 n.position ++ bool8 n.valid ++ u8 n.zone.code
          ++ (if a = .ring then bool8 s.hub.sampler.ringReferenced else [0#8])
          ++ (if a = .tilt then
              bool8 s.hub.sampler.sampledSlopeValid ++ [slope.extractLsb' 8 8, slope.extractLsb' 0 8] else [0#8, 0#8, 0#8]))

/-- FLOW_READ gives the flow pool as it stands and changes nothing (R97). -/
def Sys2Proof.Machine.Says.flowReadIsTaken : Prop :=
  ∀ (s : State) (r : Role), exec (.flowRead r) s = replied s 0x19#8 s.hub .ok
    (u8 s.hub.params.flowBudget ++ u8 s.hub.arbiter.inUse ++ u8 s.hub.arbiter.grantOrder.length
      ++ s.hub.arbiter.grantOrder.flatMap
        (fun a => u8 a.number ++ u8 (s.hub.record a).cls.code ++ u8 (s.hub.params.demand.get a))
      ++ u8 s.hub.arbiter.queue.length
      ++ s.hub.arbiter.queue.flatMap (fun e => u8 e.axis.number ++ u8 e.cls.code ++ u8 (s.hub.params.demand.get e.axis)
        ++ u8 (holderCode (s.hub.record e.axis).holder) ++ u16 e.left))

/-- BALE_READ gives the queue downstream first, the log count, the next number, the transit timer, FEED HOLD and the levels, and
changes nothing (R120). -/
def Sys2Proof.Machine.Says.baleReadIsTaken : Prop :=
  ∀ (s : State) (r : Role),
    let t := s.hub.tracker
    let records := (t.table.map (Bale.chars (some .table))).toList ++ (t.cradle.map (Bale.chars (some .cradle))).toList
      ++ (t.chamber.map (Bale.chars (some .chamber))).toList
    exec (.baleRead r) s = replied s 0x28#8 s.hub .ok
      (u8 records.length ++ records.flatten ++ u8 t.log.length ++ u16 t.nextNumber
        ++ u8 (if t.transit.isSome then 1 else 0) ++ u16 (t.transit.getD 0) ++ u8 (if t.feedHold then 1 else 0)
        ++ u8 ((if s.hub.inputs.prechamberFull then 1 else 0) + (if s.hub.inputs.cradleLoad then 2 else 0)
          + (if s.hub.inputs.tableLoad then 4 else 0)))

/-- STATUS (R165). -/
def Sys2Proof.Machine.Says.statusIsTaken : Prop :=
  ∀ (s : State) (r : Role), exec (.status r) s = replied s 0x44#8 s.hub .ok
    (u8 s.hub.control.mode.code ++ bool8 s.hub.control.stopLatch ++ bool8 s.hub.inputs.stop
      ++ bool8 s.hub.control.mapChecked ++ u8 s.hub.control.lastReset.code ++ u8 s.hub.arbiter.inUse
      ++ u32 s.hub.clock.seconds)

/-- AXIS_READ, FLOW_READ, BALE_READ and STATUS report what stands and change nothing (R18, R97, R120, R165, R181; log 9). -/
def Obligations.ReadsChangeNothing : Prop :=
  axisReadIsTaken ∧ flowReadIsTaken ∧ baleReadIsTaken ∧ statusIsTaken

/-! ### Motion and the flow pool -/

/-- A NORMAL MOVE that passes every check, finds the queue empty and fits is granted at once, and a grant of TAILGATE or TILT in EXTEND
is reported to the tracker (R66, R72, R86, R107). -/
def Obligations.MoveIsGrantedAtOnce : Prop :=
  ∀ (s : State) (r : Role) (a : Axis) (d : Direction) (v : Half) (hold : Byte),
    s.hub.control.mode = .run → (s.hub.record a).state = .claimed → (s.hub.record a).holder = some r →
    (a = .ring ∨ (s.hub.sense a).valid = true) → s.hub.valueFault a d (targetOf v) hold.toNat (some .normal) = none →
    s.hub.targetReached a (targetOf v) = false → s.hub.targetKeptOut a (targetOf v) = false →
    s.hub.permitted a d = true → s.hub.gateHolds a d (targetOf v) = true → s.hub.arbiter.queue = [] →
    s.hub.params.demand.get a + s.hub.arbiter.inUse ≤ s.hub.params.flowBudget →
    let y := { s.hub.record a with
      state := .moving, direction := d, target := targetOf v, cls := .normal, holdTime := hold.toNat, lease := hold.toNat,
      flow := s.hub.params.demand.get a }
    ∃ t, exec (.move r ⟨axisCode a, BitVec.ofNat 8 d.code, v, hold, 0#8⟩) s = .next t ∧
      t.hub.record a = y ∧ t.hub.claims.valves.get a = .towards d ∧
      t.hub.arbiter = ⟨s.hub.arbiter.inUse + s.hub.params.demand.get a, s.hub.arbiter.grantOrder ++ [a], []⟩ ∧
      (∀ b, b ≠ a → t.hub.record b = s.hub.record b ∧ t.hub.claims.valves.get b = s.hub.claims.valves.get b) ∧
      (¬ (a = .tailgate ∧ d = .extend) → ¬ (a = .tilt ∧ d = .extend) →
        t.hub.tracker = s.hub.tracker ∧ t.hub.notices = s.hub.notices) ∧ reported s.hub t.hub a d ∧
      t.hub.sampler = s.hub.sampler ∧ settingsKept s t ∧
      t.hub.lastEntry = some ⟨0x15#8, ⟨.ok, y.moveData⟩⟩

/-- A NORMAL MOVE that passes every check but meets a waiting entry or does not fit is queued at the tail (R66, R84 to R86). -/
def Obligations.MoveIsQueued : Prop :=
  ∀ (s : State) (r : Role) (a : Axis) (d : Direction) (v : Half) (hold : Byte),
    s.hub.control.mode = .run → (s.hub.record a).state = .claimed → (s.hub.record a).holder = some r →
    (a = .ring ∨ (s.hub.sense a).valid = true) → s.hub.valueFault a d (targetOf v) hold.toNat (some .normal) = none →
    s.hub.targetReached a (targetOf v) = false → s.hub.targetKeptOut a (targetOf v) = false →
    s.hub.permitted a d = true → s.hub.gateHolds a d (targetOf v) = true →
    (s.hub.arbiter.queue ≠ [] ∨ s.hub.params.flowBudget < s.hub.params.demand.get a + s.hub.arbiter.inUse) →
    let y := { s.hub.record a with
      state := .waiting, direction := d, target := targetOf v, cls := .normal, holdTime := hold.toNat, lease := fullLease s }
    exec (.move r ⟨axisCode a, BitVec.ofNat 8 d.code, v, hold, 0#8⟩) s =
      replied s 0x15#8 ({ s.hub with arbiter := { s.hub.arbiter with
          queue := s.hub.arbiter.queue ++ [(⟨a, .normal, s.hub.params.waitLimit * 100⟩ : WaitEntry)] } }.setRecord a y)
        .queued (y.moveData ++ u8 s.hub.arbiter.queue.length)

/-- An URGENT MOVE that passes every check asks for flow (R87, R88). Behind an URGENT entry, or when not even every pause would
free enough, it is queued behind the last URGENT entry. When it fits it is granted at once past the RESUME and NORMAL entries. In
the other case it is granted after pauses, and no URGENT motion and no motion of DEMAND 0 is disturbed by them. -/
def Sys2Proof.Machine.Says.urgentMoveAsksForFlow : Prop :=
  ∀ (s : State) (r : Role) (a : Axis) (d : Direction) (v : Half) (hold : Byte), sound s →
    s.hub.control.mode = .run → (s.hub.record a).state = .claimed → (s.hub.record a).holder = some r →
    (a = .ring ∨ (s.hub.sense a).valid = true) → s.hub.valueFault a d (targetOf v) hold.toNat (some .urgent) = none →
    s.hub.targetReached a (targetOf v) = false → s.hub.targetKeptOut a (targetOf v) = false →
    s.hub.permitted a d = true → s.hub.gateHolds a d (targetOf v) = true →
    let item := exec (.move r ⟨axisCode a, BitVec.ofNat 8 d.code, v, hold, 1#8⟩) s
    let urgent := fun e : WaitEntry => decide (e.cls = .urgent)
    let q : List WaitEntry := s.hub.arbiter.queue
    let need := s.hub.params.demand.get a + s.hub.arbiter.inUse
    let freeable := ((s.hub.arbiter.grantOrder.filter (fun b => (s.hub.record b).cls = .normal)).map s.hub.params.demand.get).sum
    let w := { s.hub.record a with
      state := .waiting, direction := d, target := targetOf v, cls := .urgent, holdTime := hold.toNat, lease := fullLease s }
    let y := { w with state := .moving, lease := hold.toNat, flow := s.hub.params.demand.get a }
    ((∃ e ∈ q, e.cls = .urgent) ∨ s.hub.params.flowBudget + freeable < need →
      item = replied s 0x15#8 ({ s.hub with arbiter := { s.hub.arbiter with
          queue := q.takeWhile urgent ++
            (⟨a, .urgent, s.hub.params.waitLimit * 100⟩ : WaitEntry) :: q.dropWhile urgent } }.setRecord a w)
        .queued (w.moveData ++ u8 (q.filter urgent).length)) ∧
    ((∀ e ∈ q, e.cls ≠ .urgent) → need ≤ s.hub.params.flowBudget + freeable → ∃ t, item = .next t ∧
      t.hub.record a = y ∧ t.hub.claims.valves.get a = .towards d ∧ a ∈ t.hub.arbiter.grantOrder ∧
      t.hub.lastEntry = some ⟨0x15#8, ⟨.ok, y.moveData⟩⟩ ∧ settingsKept s t ∧
      (need ≤ s.hub.params.flowBudget → t.hub.arbiter = ⟨need, s.hub.arbiter.grantOrder ++ [a], q⟩ ∧
        ∀ b, b ≠ a → t.hub.record b = s.hub.record b) ∧
      ∀ b, b ≠ a → (s.hub.record b).state ≠ .waiting → (s.hub.record b).state ≠ .paused →
        ((s.hub.record b).state ≠ .moving ∨ (s.hub.record b).cls = .urgent ∨ s.hub.params.demand.get b = 0) →
        t.hub.record b = s.hub.record b)

/-- The pre-emption of an URGENT MOVE (R84, R87, R88): of the MOVING NORMAL axes with a DEMAND above 0, the most recently granted are
paused, as few as are needed. Each has its valve off, its flow returned, its lease at CLAIM_LEASE and its notice posted; their RESUME
entries join behind the last RESUME entry, oldest grant first; then the URGENT motion is granted, and the service follows on the part
`k` so left. -/
def Sys2Proof.Machine.Says.urgentMovePausesOthers : Prop :=
  ∀ (s : State) (r : Role) (a : Axis) (d : Direction) (v : Half) (hold : Byte), sound s →
    s.hub.control.mode = .run → (s.hub.record a).state = .claimed → (s.hub.record a).holder = some r →
    (a = .ring ∨ (s.hub.sense a).valid = true) → s.hub.valueFault a d (targetOf v) hold.toNat (some .urgent) = none →
    s.hub.targetReached a (targetOf v) = false → s.hub.targetKeptOut a (targetOf v) = false →
    s.hub.permitted a d = true → s.hub.gateHolds a d (targetOf v) = true →
    let q := s.hub.arbiter.queue
    let demand := s.hub.params.demand.get
    let budget := s.hub.params.flowBudget
    let need := demand a + s.hub.arbiter.inUse
    let pausable := (s.hub.arbiter.grantOrder.filter (fun b => (s.hub.record b).cls = .normal ∧ 0 < demand b)).reverse
    let freed := fun n => ((pausable.take n).map demand).sum
    (∀ e ∈ q, e.cls ≠ .urgent) → budget < need → need ≤ budget + (pausable.map demand).sum →
    let y := { s.hub.record a with
      state := .moving, direction := d, target := targetOf v, cls := .urgent, holdTime := hold.toNat, lease := hold.toNat,
      flow := demand a }
    ∃ (n : Nat) (k : Hub), need ≤ budget + freed n ∧ (∀ m, m < n → budget + freed m < need) ∧
      exec (.move r ⟨axisCode a, BitVec.ofNat 8 d.code, v, hold, 1#8⟩) s = replied s 0x15#8 k.service .ok y.moveData ∧
      k.record a = y ∧ k.claims.valves.get a = .towards d ∧
      (∀ b ∈ pausable.take n,
        k.record b = { s.hub.record b with state := .paused, flow := 0, lease := fullLease s } ∧
        k.claims.valves.get b = .off ∧ posted k (.axis b) .ct ∧
        ∀ p, (s.hub.record b).holder = some p → posted k (.axis b) p) ∧
      (∀ b, b ≠ a → b ∉ pausable.take n →
        k.record b = s.hub.record b ∧ k.claims.valves.get b = s.hub.claims.valves.get b) ∧
      k.arbiter = {
        inUse := need - freed n,
        grantOrder := s.hub.arbiter.grantOrder.filter (fun b => b ∉ pausable.take n) ++ [a],
        queue := q.takeWhile (fun e => e.cls ≠ .normal)
          ++ (pausable.take n).reverse.map (fun b => (⟨b, .resume, s.hub.params.waitLimit * 100⟩ : WaitEntry))
          ++ q.dropWhile (fun e => e.cls ≠ .normal) } ∧
      reported s.hub k a d ∧ k.sampler = s.hub.sampler ∧ settingsKept s { s with hub := k }

/-- An URGENT MOVE that passes every check, and the motions it pauses (R84, R87, R88). -/
def Obligations.UrgentMoveAsksForFlow : Prop :=
  urgentMoveAsksForFlow ∧ urgentMovePausesOthers

/-- The service takes the wait queue from its head (R91): a head that may move and does not fit stops it, one that may move and
fits is granted, one that fails its re-check becomes CLAIMED with the cause; no entry passes another. -/
def Sys2Proof.Machine.Says.serviceTakesTheHead : Prop :=
  ∀ (h : Hub) (e : WaitEntry) (rest : List WaitEntry), h.motionAgrees → h.valvesAgree → h.arbiter.queue = e :: rest →
    let x := h.record e.axis
    let t := h.service
    (h.recheck e.axis = none → h.params.flowBudget < h.params.demand.get e.axis + h.arbiter.inUse → t = h) ∧
    (h.recheck e.axis = none → h.params.demand.get e.axis + h.arbiter.inUse ≤ h.params.flowBudget →
      t.record e.axis = { x with state := .moving, flow := h.params.demand.get e.axis, lease := x.holdTime } ∧
        t.claims.valves.get e.axis = .towards x.direction ∧ e.axis ∈ t.arbiter.grantOrder ∧
        ∃ k, t.arbiter.queue = rest.drop k) ∧
    ∀ cause, h.recheck e.axis = some cause →
      t.record e.axis = { x with state := .claimed, flow := 0, lease := h.params.claimLease * 100, lastEnd := cause } ∧
        t.claims.valves.get e.axis = .off ∧ ∃ k, t.arbiter.queue = rest.drop k

/-- The service goes on after a head (R91): what is left to it when the head has been granted, its notice posted and a TAILGATE or
TILT extend reported (R72, R107), or when the head has been removed with the cause of its re-check. -/
def Sys2Proof.Machine.Says.serviceGoesOn : Prop :=
  ∀ (h : Hub) (e : WaitEntry) (rest : List WaitEntry), h.motionAgrees → h.valvesAgree → h.arbiter.queue = e :: rest →
    let x := h.record e.axis
    (h.recheck e.axis = none → h.params.demand.get e.axis + h.arbiter.inUse ≤ h.params.flowBudget → ∃ k : Hub,
      h.service = k.service ∧ reported h k e.axis x.direction ∧ posted k (.axis e.axis) .ct ∧
      (∀ r, x.holder = some r → posted k (.axis e.axis) r) ∧
      k = { h with
        claims := {
          records := h.claims.records.set e.axis
            { x with state := .moving, flow := h.params.demand.get e.axis, lease := x.holdTime },
          valves := h.claims.valves.set e.axis (.towards x.direction) },
        arbiter := ⟨h.arbiter.inUse + h.params.demand.get e.axis, h.arbiter.grantOrder ++ [e.axis], rest⟩,
        tracker := k.tracker, notices := k.notices }) ∧
    ∀ cause, h.recheck e.axis = some cause →
      h.service = (endedHub h e.axis
        { x with state := .claimed, flow := 0, lease := h.params.claimLease * 100, lastEnd := cause }).service

/-- An empty queue ends the service at once (R90, R91). -/
def Sys2Proof.Machine.Says.serviceOfAnEmptyQueue : Prop := ∀ h : Hub, h.arbiter.queue = [] → h.service = h

/-- The re-check (R25): own zone, bale gate, other axes, with the direction and target of the record; the first failure decides. -/
def Sys2Proof.Machine.Says.recheckDecides : Prop :=
  ∀ (h : Hub) (a : Axis),
    let d := (h.record a).direction
    let gate := h.gateHolds a d (h.record a).target
    (¬ ownZoneAllows h a d → h.recheck a = some .blocked) ∧
    (ownZoneAllows h a d → gate = false → h.recheck a = some .gate) ∧
    (ownZoneAllows h a d → gate = true → (∃ b, refuses h a d b) → h.recheck a = some .blocked) ∧
    (ownZoneAllows h a d → gate = true → (∀ b, ¬ refuses h a d b) → h.recheck a = none)

/-- The service: its head, what follows it, and the re-check of a head (R25, R72, R91, R107). -/
def Obligations.ServiceTakesTheHead : Prop :=
  serviceTakesTheHead ∧ serviceGoesOn ∧ serviceOfAnEmptyQueue ∧ recheckDecides

/-- A MOVE to a target already reached is answered OK as an immediate arrival, before the map, the gates and the flow (R65). -/
def Sys2Proof.Machine.Says.moveArrivesImmediately : Prop :=
  ∀ (s : State) (r : Role) (a : Axis) (d : Direction) (v : Half) (hold : Byte) (c : MotionClass),
    s.hub.control.mode = .run → (s.hub.record a).state = .claimed → (s.hub.record a).holder = some r →
    (a = .ring ∨ (s.hub.sense a).valid = true) → s.hub.valueFault a d (targetOf v) hold.toNat (some c) = none →
    s.hub.targetReached a (targetOf v) = true →
    let y := { s.hub.record a with
      direction := d, target := targetOf v, cls := c, holdTime := hold.toNat, lease := fullLease s, lastEnd := .arrived }
    exec (.move r ⟨axisCode a, BitVec.ofNat 8 d.code, v, hold, BitVec.ofNat 8 c.code⟩) s =
      replied s 0x15#8 ((s.hub.setRecord a y).postTo (.axis a) [r, .ct]) .ok y.moveData

/-- A MOVE on a MOVING axis in its direction, of its kind and class, to a new target takes the target and hold time and restarts
the lease; nothing else changes (R67). -/
def Sys2Proof.Machine.Says.moveRetargets : Prop :=
  ∀ (s : State) (r : Role) (a : Axis) (v : Half) (hold : Byte),
    let x := s.hub.record a
    s.hub.control.mode = .run → x.state = .moving → x.holder = some r →
    (a = .ring → (x.target = .run ↔ targetOf v = .run)) →
    s.hub.valueFault a x.direction (targetOf v) hold.toNat (some x.cls) = none →
    s.hub.targetReached a (targetOf v) = false → s.hub.targetKeptOut a (targetOf v) = false →
    let y := { x with target := targetOf v, holdTime := hold.toNat, lease := hold.toNat }
    exec (.move r ⟨axisCode a, BitVec.ofNat 8 x.direction.code, v, hold, BitVec.ofNat 8 x.cls.code⟩) s =
      replied s 0x15#8 (s.hub.setRecord a y) .ok y.moveData

/-- A retarget to a target already reached ends the motion as an arrival, with the new target and hold time, and the service follows
(R67 step 3, R74, R90). -/
def Sys2Proof.Machine.Says.retargetArrives : Prop :=
  ∀ (s : State) (r : Role) (a : Axis) (v : Half) (hold : Byte), sound s →
    let x := s.hub.record a
    s.hub.control.mode = .run → x.state = .moving → x.holder = some r →
    (a = .ring → (x.target = .run ↔ targetOf v = .run)) →
    s.hub.valueFault a x.direction (targetOf v) hold.toNat (some x.cls) = none →
    s.hub.targetReached a (targetOf v) = true →
    let y := kept s { x with target := targetOf v, holdTime := hold.toNat } .arrived
    exec (.move r ⟨axisCode a, BitVec.ofNat 8 x.direction.code, v, hold, BitVec.ofNat 8 x.cls.code⟩) s =
      replied s 0x15#8 (endedHub s.hub a y).service .ok y.moveData

/-- The MOVE that finds its target reached, and the MOVE taken as a retarget (R65, R67). -/
def Obligations.MoveArrivesOrRetargets : Prop :=
  moveArrivesImmediately ∧ moveRetargets ∧ retargetArrives

/-- The first checks of a MOVE: axis and direction codes, the holder, and the states that answer BUSY (R60 to R62). -/
def Sys2Proof.Machine.Says.moveChecksItsRequester : Prop :=
  ∀ (s : State) (r : Role) (m : MoveArgs),
    (5 < m.axis.toNat ∨ 1 < m.direction.toNat → exec (.move r m) s = replied s 0x15#8 s.hub .badValue []) ∧
    ∀ (a : Axis) (d : Direction), m.axis = axisCode a → m.direction = BitVec.ofNat 8 d.code →
      let x := s.hub.record a
      (late x r → exec (.move r m) s = replied s 0x15#8 s.hub .late x.moveData) ∧
      (¬ late x r → x.holder ≠ some r → exec (.move r m) s = replied s 0x15#8 s.hub .notHolder x.moveData) ∧
      (x.holder = some r → s.hub.control.mode = .run →
        x.state = .waiting ∨ x.state = .paused ∨ (x.state = .moving ∧ x.direction ≠ d) →
        exec (.move r m) s = replied s 0x15#8 s.hub .busy x.moveData)

/-- An URGENT motion that is running is never paused by a MOVE (R87, R88). -/
def Sys2Proof.Machine.Says.urgentMotionsAreNotPaused : Prop :=
  ∀ (s t : State) (r : Role) (m : MoveArgs) (b : Axis), (s.hub.record b).state = .moving → (s.hub.record b).cls = .urgent →
    exec (.move r m) s = .next t → (t.hub.record b).state ≠ .paused

/-- The checks a MOVE makes on values and target: the two value checks and the URGENT check of step 5 (R64), the target reached of
step 6 with the circular distance of a REFERENCED ring (R65), and the KEEP_OUT test of step 7 (R24). The positions are those of the
latest sample, the reference state is the encoder's present one (log 9), and that the target's zone is counted on the boundaries as
the map holds them when the MOVE is taken, before the next sample after a ZONE_SET too, is the model's choice (log 23, DESIGN CHOICE). -/
def Sys2Proof.Machine.Says.moveTestsItsValues : Prop :=
  (∀ (h : Hub) (a : Axis) (d : Direction) (t : Target) (hold : Nat) (c : Option MotionClass),
    let p := (h.sense a).position
    let tol := h.params.tolerance.get a
    let lawful := (match t with
        | .run => a = .ring ∧ d = .extend
        | .to v => if a = .ring then d = .extend ∧ v < 720 else 1 ≤ v ∧ v ≤ 4094) ∧ 5 ≤ hold ∧ hold ≤ 255 ∧ c ≠ none
    let behind := ∃ v, t = .to v ∧ a ≠ .ring ∧ (if d = .extend then v + tol < p else p + tol < v)
    let barred := c = some .urgent ∧ h.params.urgentOk.get a = false
    (h.valueFault a d t hold c = some .badValue ↔ ¬ lawful ∨ behind) ∧
    (h.valueFault a d t hold c = some .notAllowed ↔ lawful ∧ ¬ behind ∧ barred) ∧
    (h.valueFault a d t hold c = none ↔ lawful ∧ ¬ behind ∧ ¬ barred) ∧
    (h.targetReached a t = true ↔ ∃ v, t = .to v ∧
      if a = .ring then h.sampler.ringReferenced = true ∧ circularDistance p v ≤ tol else v ≤ p + tol ∧ p ≤ v + tol) ∧
    (h.targetKeptOut a t = true ↔
      ∃ v, t = .to v ∧ ((h.map.get a).entries.get ((h.map.get a).bounds.zoneOf v)).kind = .keepOut)) ∧
  ∀ p q : Nat, p < 720 → q < 720 → circularDistance p q = min ((q + 720 - p) % 720) ((p + 720 - q) % 720)

/-- What a MOVE on a CLAIMED axis is answered at steps 4 to 9, the first check that fails deciding (R24, R63, R64): NO_POSITION, BAD_VALUE,
NOT_ALLOWED, INTERLOCK by its own zones, GATE, INTERLOCK by the lowest-numbered axis that refuses it. -/
def Sys2Proof.Machine.Says.moveIsRefusedAtItsSteps : Prop :=
  ∀ (s : State) (r : Role) (a : Axis) (d : Direction) (v : Half) (hold c : Byte),
    s.hub.control.mode = .run → (s.hub.record a).state = .claimed → (s.hub.record a).holder = some r →
    let x := s.hub.record a
    let item := exec (.move r ⟨axisCode a, BitVec.ofNat 8 d.code, v, hold, c⟩) s
    let fault := s.hub.valueFault a d (targetOf v) hold.toNat (argClass c)
    (a ≠ .ring → (s.hub.sense a).valid = false → item = replied s 0x15#8 s.hub .noPosition x.moveData) ∧
    (a = .ring ∨ (s.hub.sense a).valid = true →
      (fault = some .badValue → item = replied s 0x15#8 s.hub .badValue []) ∧
      (fault = some .notAllowed → item = replied s 0x15#8 s.hub .notAllowed x.moveData) ∧
      (fault = none → s.hub.targetReached a (targetOf v) = false →
        (s.hub.targetKeptOut a (targetOf v) = true ∨ ¬ ownZoneAllows s.hub a d →
          item = replied s 0x15#8 s.hub .interlock (x.moveData ++ [axisCode a])) ∧
        (s.hub.targetKeptOut a (targetOf v) = false → ownZoneAllows s.hub a d →
          (s.hub.gateHolds a d (targetOf v) = false → item = replied s 0x15#8 s.hub .gate x.moveData) ∧
          (s.hub.gateHolds a d (targetOf v) = true →
            ∀ b, refuses s.hub a d b → (∀ b', b'.number < b.number → ¬ refuses s.hub a d b') →
              item = replied s 0x15#8 s.hub .interlock (x.moveData ++ [axisCode b])))))

/-- What a MOVE in the direction of a MOVING axis is refused with (R62, R67): BUSY for the other kind of ring motion, then the value
checks, BUSY for another class, INTERLOCK for a target in a KEEP_OUT zone. -/
def Sys2Proof.Machine.Says.retargetIsRefused : Prop :=
  ∀ (s : State) (r : Role) (a : Axis) (v : Half) (hold c : Byte),
    let x := s.hub.record a
    s.hub.control.mode = .run → x.state = .moving → x.holder = some r →
    let item := exec (.move r ⟨axisCode a, BitVec.ofNat 8 x.direction.code, v, hold, c⟩) s
    let fault := s.hub.valueFault a x.direction (targetOf v) hold.toNat (argClass c)
    (a = .ring → ¬ (x.target = .run ↔ targetOf v = .run) → item = replied s 0x15#8 s.hub .busy x.moveData) ∧
    ((a = .ring → (x.target = .run ↔ targetOf v = .run)) →
      (fault = some .badValue → item = replied s 0x15#8 s.hub .badValue []) ∧
      (fault = some .notAllowed → item = replied s 0x15#8 s.hub .notAllowed x.moveData) ∧
      (fault = none → argClass c ≠ some x.cls → item = replied s 0x15#8 s.hub .busy x.moveData) ∧
      (fault = none → argClass c = some x.cls → s.hub.targetReached a (targetOf v) = false →
        s.hub.targetKeptOut a (targetOf v) = true →
        item = replied s 0x15#8 s.hub .interlock (x.moveData ++ [axisCode a])))

/-- Every refusal of a MOVE, step by step, and what a MOVE never does to an URGENT motion (R24, R60 to R65, R67, R88). The model's own:
the ring's present reference state (log 9) and the boundaries that give the target's zone (log 23). -/
def Obligations.MoveIsRefusedEarly : Prop :=
  moveChecksItsRequester ∧ moveTestsItsValues ∧ moveIsRefusedAtItsSteps ∧ retargetIsRefused ∧ urgentMotionsAreNotPaused

/-- STOP that finds nothing to end: the refusals and the IDLE and CLAIMED axes (R76). -/
def Sys2Proof.Machine.Says.stopOfAStandingAxis : Prop :=
  ∀ (s : State) (r : Role),
    (∀ axis : Byte, 5 < axis.toNat → exec (.stop r axis) s = replied s 0x16#8 s.hub .badValue []) ∧
    ∀ a : Axis,
      let x := s.hub.record a
      (late x r → exec (.stop r (axisCode a)) s = replied s 0x16#8 s.hub .late x.stopData) ∧
      (¬ late x r → s.hub.control.mode ≠ .run → exec (.stop r (axisCode a)) s = replied s 0x16#8 s.hub .wrongMode x.stopData) ∧
      (¬ late x r → s.hub.control.mode = .run → ¬ inFlight x →
        exec (.stop r (axisCode a)) s = replied s 0x16#8 s.hub .ok x.stopData)

/-- STOP from any role ends a WAITING, MOVING or PAUSED motion and keeps the claim (R76, R77). -/
def Sys2Proof.Machine.Says.stopEndsTheMotion : Prop :=
  ∀ (s : State) (r : Role) (a : Axis), sound s → s.hub.control.mode = .run → inFlight (s.hub.record a) →
    let y := kept s (s.hub.record a) (if (s.hub.record a).holder = some r then .stopped else .stoppedOther)
    ∃ t, exec (.stop r (axisCode a)) s = .next t ∧ ended s t a y ∧ t.hub.lastEntry = some ⟨0x16#8, ⟨.ok, y.stopData⟩⟩

/-- STOP in every state of the axis (R76). -/
def Obligations.StopIsTaken : Prop :=
  stopOfAStandingAxis ∧ stopEndsTheMotion

/-- ALL_STOP ends every motion and keeps every claim; the queue is then empty and the flow in use 0 (R78). -/
def Obligations.AllStopEndsEveryMotion : Prop :=
  ∀ (s : State) (r : Role), sound s → ∃ t, exec (.allStop r) s = .next t ∧
    (∀ a, t.hub.record a = if (s.hub.record a).state = .waiting ∨ (s.hub.record a).state = .moving ∨
        (s.hub.record a).state = .paused then kept s (s.hub.record a) .allStop else s.hub.record a) ∧
    (∀ a, t.hub.claims.valves.get a = .off) ∧ t.hub.arbiter = ⟨0, [], []⟩ ∧
    t.hub.tracker = s.hub.tracker ∧ t.hub.sampler = s.hub.sampler ∧ settingsKept s t ∧
    (∀ a q, inFlight (s.hub.record a) → (s.hub.record a).holder = some q →
      pendingFor t (.axis a) q ∧ pendingFor t (.axis a) .ct) ∧
    ∃ e, t.hub.lastEntry = some ⟨0x17#8, ⟨.ok, [e]⟩⟩ ∧ ∀ a, e.getLsbD a.number = true ↔ inFlight (s.hub.record a)

/-! ### Bales -/

/-- The number a new record receives (R101): the next bale number when no record of the queue or the log holds it, and else the first
one from it on that none holds, each number passed over being held. -/
def Sys2Proof.Machine.Says.firstNumber (h : Hub) (n : Nat) : Prop :=
  (h.tracker.nextNumber ∉ h.tracker.heldNumbers → n = h.tracker.nextNumber) ∧
    passesOver h.tracker.heldNumbers h.tracker.nextNumber n ∧
    (h.tracker.numbersAgree → h.tracker.logBounded → n ∉ h.tracker.heldNumbers)

/-- BALE_START (R102): only CH, only into an empty chamber; the record is FORMING, with the first number from the next one on that no
record holds (R101) and the field clock as start time, no flag and no part, and BALE_MOVED goes to all three roles. -/
def Obligations.BaleStartIsTaken : Prop :=
  ∀ s : State,
    exec (.baleStart .wr) s = replied s 0x21#8 s.hub .notAllowed [] ∧
    exec (.baleStart .ct) s = replied s 0x21#8 s.hub .notAllowed [] ∧
    (∀ b, s.hub.tracker.chamber = some b →
      exec (.baleStart .ch) s = replied s 0x21#8 s.hub .gate (u16 b.number ++ u8 b.stage.code)) ∧
    (s.hub.tracker.chamber = none → ∃ t n, exec (.baleStart .ch) s = .next t ∧
      t.hub.tracker = { s.hub.tracker with
        chamber := some ⟨n, .forming, BaleFlags.empty, s.hub.clock.seconds, none, none, none, none, none, none⟩,
        nextNumber := if 65535 ≤ n then 1 else n + 1 } ∧
      firstNumber s.hub n ∧
      (∀ r, pendingFor t .baleMoved r) ∧ t.hub.lastEntry = some ⟨0x21#8, ⟨.ok, u16 n⟩⟩ ∧
      t.hub.claims = s.hub.claims ∧ t.hub.arbiter = s.hub.arbiter ∧ t.hub.counter = s.hub.counter ∧
      t.hub.params = s.hub.params)

/-- BIND_START binds a FORMING chamber bale: net part with the target copied and no pulses, BINDING, the net watch armed, BALE_MOVED
to all three roles, and FEED_HOLD to CH and CT when it asserts FEED HOLD, else to none (R117); in any other case it is refused
(R103, R127). -/
def Sys2Proof.Machine.Says.bindStartIsTaken : Prop :=
  ∀ (s : State) (r : Role),
    (r ≠ .ch → exec (.bindStart r) s = replied s 0x22#8 s.hub .notAllowed []) ∧
    (s.hub.tracker.chamber = none → exec (.bindStart .ch) s = replied s 0x22#8 s.hub .gate []) ∧
    ∀ b, s.hub.tracker.chamber = some b →
      (b.stage ≠ .forming →
        exec (.bindStart .ch) s = replied s 0x22#8 s.hub .gate (u16 b.number ++ u8 b.stage.code)) ∧
      (b.stage = .forming → ∃ t, exec (.bindStart .ch) s = .next t ∧
        t.hub.tracker.chamber = some { b with stage := .binding, net := some ⟨s.hub.params.netTarget, 0⟩ } ∧
        t.hub.counter = { s.hub.counter with
          watch := if s.hub.inputs.netFeed then .feeding else .startWait,
          startTimer := if s.hub.inputs.netFeed then none else some (s.hub.params.netStartLimit * 100), gapTimer := none } ∧
        t.hub.tracker.feedHold = s.hub.inputs.prechamberFull ∧ (∀ q, pendingFor t .baleMoved q) ∧
        (let moved := s.hub.postTo .baleMoved [.ch, .wr, .ct]
        t.hub.notices = (if s.hub.inputs.prechamberFull = true ∧ s.hub.tracker.feedHold = false then
          (moved.postTo .feedHold [.ch, .ct]).notices else moved.notices)) ∧
        (s.hub.inputs.prechamberFull = true → s.hub.tracker.feedHold = false →
          pendingFor t .feedHold .ch ∧ pendingFor t .feedHold .ct) ∧
        (s.hub.inputs.prechamberFull = false ∨ s.hub.tracker.feedHold = true →
          ∀ q, pendingFor t .feedHold q ↔ pendingFor s .feedHold q) ∧
        t.hub.lastEntry = some ⟨0x22#8, ⟨.ok, u16 b.number ++ u8 s.hub.params.netTarget⟩⟩ ∧
        t.hub.tracker.table = s.hub.tracker.table ∧ t.hub.claims = s.hub.claims ∧ t.hub.arbiter = s.hub.arbiter ∧
        settingsKept s { t with hub := { t.hub with counter := s.hub.counter } })

/-- BIND_RETRY arms the watch on a BINDING bale anew and keeps the record (R106, R131); else it is refused with no data. -/
def Sys2Proof.Machine.Says.bindRetryIsTaken : Prop :=
  ∀ (s : State) (r : Role),
    (r ≠ .ch → exec (.bindRetry r) s = replied s 0x23#8 s.hub .notAllowed []) ∧
    (s.hub.tracker.stageAt .chamber ≠ some .binding → exec (.bindRetry .ch) s = replied s 0x23#8 s.hub .gate []) ∧
    ∀ b n, s.hub.tracker.chamber = some b → b.stage = .binding → b.net = some n →
      exec (.bindRetry .ch) s = replied s 0x23#8
        { s.hub with counter := { s.hub.counter with
          watch := if s.hub.inputs.netFeed then .feeding else .startWait,
          startTimer := if s.hub.inputs.netFeed then none else some (s.hub.params.netStartLimit * 100),
          gapTimer := none } }
        .ok (u16 b.number ++ u8 n.pulses)

/-- BIND_START and BIND_RETRY (R103, R106, R127, R131). -/
def Obligations.BindingBegins : Prop :=
  bindStartIsTaken ∧ bindRetryIsTaken

/-- WRAP_START begins the wrapping of an ON_TABLE bale; in any other case it is refused (R112). -/
def Sys2Proof.Machine.Says.wrapStartIsTaken : Prop :=
  ∀ (s : State) (r : Role),
    (r ≠ .wr → exec (.wrapStart r) s = replied s 0x24#8 s.hub .notAllowed []) ∧
    (s.hub.tracker.table = none → exec (.wrapStart .wr) s = replied s 0x24#8 s.hub .gate []) ∧
    ∀ b, s.hub.tracker.table = some b →
      exec (.wrapStart .wr) s =
        if b.stage ≠ .onTable then replied s 0x24#8 s.hub .gate (u16 b.number ++ u8 b.stage.code)
        else replied s 0x24#8
          ({ s.hub with tracker := { s.hub.tracker with
              table := some { b with stage := .wrapping, film := some ⟨s.hub.params.filmTarget, 0, []⟩ } } }.postTo
            .baleMoved [.ch, .wr, .ct])
          .ok (u16 b.number ++ u8 s.hub.params.filmTarget)

/-- FILM_RESET makes a dispenser READY and reports both states and both inputs; from WR alone (R138). -/
def Sys2Proof.Machine.Says.filmResetIsTaken : Prop :=
  ∀ (s : State) (r : Role) (d : Byte),
    exec (.filmReset r d) s =
      if r ≠ .wr then replied s 0x25#8 s.hub .notAllowed []
      else if 1 < d.toNat then replied s 0x25#8 s.hub .badValue []
      else
        let c := if d.toNat = 0 then { s.hub.counter with dispenserA := .ready } else { s.hub.counter with dispenserB := .ready }
        replied s 0x25#8 { s.hub with counter := c } .ok
          (u8 ((if c.dispenserA = .broken then 1 else 0) + (if c.dispenserB = .broken then 2 else 0)
            + (if s.hub.inputs.breakA then 4 else 0) + (if s.hub.inputs.breakB then 8 else 0)))

/-- WRAP_START and FILM_RESET (R112, R138). -/
def Obligations.WrappingBegins : Prop :=
  wrapStartIsTaken ∧ filmResetIsTaken

/-- BALE_NOTE writes the moisture of the chamber bale or the weight of the table bale (R118). -/
def Obligations.BaleNoteIsTaken : Prop :=
  ∀ (s : State) (v : Half),
    exec (.baleNote .ct v) s = replied s 0x26#8 s.hub .notAllowed [] ∧
    (200 < v.toNat → exec (.baleNote .ch v) s = replied s 0x26#8 s.hub .badValue []) ∧
    (4000 < v.toNat → exec (.baleNote .wr v) s = replied s 0x26#8 s.hub .badValue []) ∧
    (v.toNat ≤ 200 → exec (.baleNote .ch v) s =
      match s.hub.tracker.chamber with
      | none => replied s 0x26#8 s.hub .gate []
      | some b => replied s 0x26#8
        { s.hub with tracker := { s.hub.tracker with chamber := some { b with moisture := some v.toNat } } }
        .ok (u16 b.number)) ∧
    (v.toNat ≤ 4000 → exec (.baleNote .wr v) s =
      match s.hub.tracker.table with
      | none => replied s 0x26#8 s.hub .gate []
      | some b => replied s 0x26#8
        { s.hub with tracker := { s.hub.tracker with table := some { b with weight := some v.toNat } } } .ok (u16 b.number))

/-- BALE_DECLARE is refused by the first failing check: the role, the mode, the codes, a stage its place does not admit or that is
BINDING or WRAPPING, an occupied place (R119). -/
def Sys2Proof.Machine.Says.baleDeclareIsRefused : Prop :=
  ∀ (s : State) (r : Role),
    (∀ p g : Byte, r ≠ .ct ∨ s.hub.control.mode ≠ .setup ∨ 2 < p.toNat ∨ 8 < g.toNat → exec (.baleDeclare r p g) s =
      replied s 0x27#8 s.hub (if r ≠ .ct then .notAllowed else if s.hub.control.mode ≠ .setup then .wrongMode else .badValue)
        []) ∧
    (r = .ct → s.hub.control.mode = .setup → ∀ (p : Place) (g : Stage), g ≠ .dropped →
      let item := exec (.baleDeclare r (BitVec.ofNat 8 (placeCode (some p))) (BitVec.ofNat 8 g.code)) s
      (p.admits g = false ∨ g = .binding ∨ g = .wrapping → item = replied s 0x27#8 s.hub .badValue []) ∧
      (p.admits g = true → g ≠ .binding → g ≠ .wrapping → ∀ b, s.hub.tracker.at p = some b →
        item = replied s 0x27#8 s.hub .gate (u16 b.number ++ u8 b.stage.code)))

/-- BALE_DECLARE from CT in SETUP at an empty place, in a stage that may be declared there, creates a RECOVERED record (R119), with
the first number from the next one on that no record holds (R101). The premise on TABLE_LATE_LIMIT holds in every state a run reaches (R151; StepKeepsTheParameters). -/
def Sys2Proof.Machine.Says.baleDeclareIsTaken : Prop :=
  ∀ (s : State) (p : Place) (g : Stage), s.hub.control.mode = .setup → 0 < s.hub.params.tableLateLimit →
    p.admits g = true → g ≠ .binding → g ≠ .wrapping → s.hub.tracker.at p = none →
    ∃ t b, exec (.baleDeclare .ct (BitVec.ofNat 8 (placeCode (some p))) (BitVec.ofNat 8 g.code)) s = .next t ∧
      t.hub.tracker.at p = some b ∧ firstNumber s.hub b.number ∧ b.stage = g ∧ b.flags = { BaleFlags.empty with recovered := true } ∧
      b.startTime = s.hub.clock.seconds ∧ b.moisture = none ∧ b.net = none ∧ b.film = none ∧ b.weight = none ∧
      b.dropTime = none ∧ t.hub.tracker.nextNumber = (if 65535 ≤ b.number then 1 else b.number + 1) ∧
      (∀ q, pendingFor t .baleMoved q) ∧ t.hub.lastEntry = some ⟨0x27#8, ⟨.ok, u16 b.number⟩⟩ ∧
      (∀ q, q ≠ p → t.hub.tracker.stageAt q = s.hub.tracker.stageAt q) ∧ t.hub.tracker.log = s.hub.tracker.log ∧
      t.hub.claims = s.hub.claims ∧ t.hub.params = s.hub.params

/-- The cradle-wait stopwatch and a declaration (R115, R116): a CARRIED bale declared while the table is occupied, or a table bale
declared while a CARRIED bale waits at CRADLE, starts it at TABLE_LATE_LIMIT; the wait is made present, and a count that is at the
limit already makes the bale TABLE_LATE. Any other declaration leaves it. -/
def Sys2Proof.Machine.Says.declarationsStartTheStopwatch : Prop :=
  ∀ (s : State) (p : Place) (g : Stage), s.hub.control.mode = .setup →
    p.admits g = true → g ≠ .binding → g ≠ .wrapping → s.hub.tracker.at p = none →
    ∃ t, exec (.baleDeclare .ct (BitVec.ofNat 8 (placeCode (some p))) (BitVec.ofNat 8 g.code)) s = .next t ∧
      let limit := s.hub.params.tableLateLimit
      (p = .cradle → s.hub.tracker.table ≠ none → s.hub.tracker.stopwatch = none →
        t.hub.tracker.stopwatch = some ⟨limit, 0⟩ ∧ ∃ b, t.hub.tracker.cradle = some b ∧ b.cradleWait = some 0) ∧
      (∀ b, p = .table → s.hub.tracker.cradle = some b → b.stage = .carried → s.hub.tracker.stopwatch = none →
        t.hub.tracker.stopwatch = some ⟨limit, 0⟩ ∧
        t.hub.tracker.cradle = some { b with
          cradleWait := some (b.cradleWait.getD 0),
          flags := { b.flags with tableLate := b.flags.tableLate || decide (limit ≤ b.cradleWait.getD 0) } } ∧
        (limit ≤ b.cradleWait.getD 0 → b.flags.tableLate = false → ∀ r, pendingFor t .tableLate r)) ∧
      (p = .chamber ∨ s.hub.tracker.stopwatch ≠ none ∨ (p = .cradle ∧ s.hub.tracker.table = none) ∨
          (p = .table ∧ s.hub.tracker.stageAt .cradle ≠ some .carried) →
        t.hub.tracker.stopwatch = s.hub.tracker.stopwatch ∧
        (∀ q, q ≠ p → t.hub.tracker.at q = s.hub.tracker.at q) ∧
        ∀ b, t.hub.tracker.at p = some b → b.cradleWait = none)

/-- BALE_DECLARE, refused and taken, and the stopwatch it starts (R115, R116, R119). -/
def Obligations.BaleDeclareIsTaken : Prop :=
  baleDeclareIsRefused ∧ baleDeclareIsTaken ∧ declarationsStartTheStopwatch

/-- LOG_READ gives the log count and the 4 oldest records, to CT alone, and leaves the log as it stands (R122). -/
def Sys2Proof.Machine.Says.logReadIsTaken : Prop :=
  ∀ s : State,
    exec (.logRead .ch) s = replied s 0x29#8 s.hub .notAllowed [] ∧
    exec (.logRead .wr) s = replied s 0x29#8 s.hub .notAllowed [] ∧
    exec (.logRead .ct) s = replied s 0x29#8 s.hub .ok
      (u8 s.hub.tracker.log.length ++ (s.hub.tracker.log.take 4).flatMap (Bale.chars none))

/-- LOG_DROP removes the n oldest records, n from 1 to 4 and at most as many as there are, from CT alone (R123). -/
def Sys2Proof.Machine.Says.logDropIsTaken : Prop :=
  ∀ (s : State) (n : Byte),
    exec (.logDrop .ch n) s = replied s 0x2A#8 s.hub .notAllowed [] ∧
    exec (.logDrop .wr n) s = replied s 0x2A#8 s.hub .notAllowed [] ∧
    exec (.logDrop .ct n) s =
      if n.toNat < 1 ∨ 4 < n.toNat ∨ s.hub.tracker.log.length < n.toNat then replied s 0x2A#8 s.hub .badValue []
      else replied s 0x2A#8 { s.hub with tracker := { s.hub.tracker with log := s.hub.tracker.log.drop n.toNat } } .ok
        (u8 (s.hub.tracker.log.length - n.toNat))

/-- LOG_READ and LOG_DROP (R122, R123). -/
def Obligations.LogIsReadAndDropped : Prop :=
  logReadIsTaken ∧ logDropIsTaken

/-- The cradle load switch becomes active (R108): an EJECTING chamber bale moves to an empty CRADLE as CARRIED, and otherwise
SENSOR_FAULT goes to all three roles and no record changes. -/
def Sys2Proof.Machine.Says.cradleLoadBecomesActive : Prop :=
  ∀ s : State, ∃ t, exec .cradleLoadActive s = .next t ∧ t.hub.inputs = { s.hub.inputs with cradleLoad := true } ∧
    (if s.hub.tracker.stageAt .chamber = some .ejecting ∧ s.hub.tracker.cradle = none then
      t.hub.tracker.chamber = none ∧ t.hub.tracker.stageAt .cradle = some .carried ∧
        t.hub.tracker.feedHold = false ∧ ∀ r, pendingFor t .baleMoved r
    else t.hub.tracker = s.hub.tracker ∧ ∀ r, pendingFor t .sensorFault r) ∧
    t.hub.tracker.table = s.hub.tracker.table ∧ t.hub.tracker.log = s.hub.tracker.log ∧
    t.hub.claims = s.hub.claims ∧ t.hub.arbiter = s.hub.arbiter ∧ t.hub.counter = s.hub.counter

/-- The bale the cradle edge carries over is the chamber's record, in stage CARRIED (R108); with the table occupied the stopwatch starts
for it at TABLE_LATE_LIMIT, its wait made present, and a count at the limit already makes it TABLE_LATE (R115, R116). -/
def Sys2Proof.Machine.Says.theChamberBaleIsCarried : Prop :=
  ∀ (s : State) (b : Bale), s.hub.tracker.chamber = some b → b.stage = .ejecting → s.hub.tracker.cradle = none →
    let starts := s.hub.tracker.table ≠ none ∧ s.hub.tracker.stopwatch = none
    let limit := s.hub.params.tableLateLimit
    ∃ t, exec .cradleLoadActive s = .next t ∧
      (¬ starts → t.hub.tracker.cradle = some { b with stage := .carried } ∧
        t.hub.tracker.stopwatch = s.hub.tracker.stopwatch) ∧
      (starts → t.hub.tracker.stopwatch = some ⟨limit, 0⟩ ∧
        t.hub.tracker.cradle = some { b with
          stage := .carried, cradleWait := some (b.cradleWait.getD 0),
          flags := { b.flags with tableLate := b.flags.tableLate || decide (limit ≤ b.cradleWait.getD 0) } } ∧
        (limit ≤ b.cradleWait.getD 0 → b.flags.tableLate = false → ∀ r, pendingFor t .tableLate r)) ∧
      t.hub.tracker.transit = s.hub.tracker.transit ∧ t.hub.tracker.nextNumber = s.hub.tracker.nextNumber

/-- The cradle load switch becomes inactive (R109): the transit timer starts at 3 s for a CARRIED bale, or runs on. -/
def Sys2Proof.Machine.Says.cradleLoadBecomesInactive : Prop :=
  ∀ s : State, exec .cradleLoadInactive s = took s { s.hub with
    inputs := { s.hub.inputs with cradleLoad := false },
    tracker := { s.hub.tracker with
      transit := if s.hub.tracker.stageAt .cradle = some .carried ∧ s.hub.tracker.transit = none then some 300
        else s.hub.tracker.transit } }

/-- Both edges of the cradle load switch (R108, R109, R115, R116). -/
def Obligations.CradleSwitchEdges : Prop :=
  cradleLoadBecomesActive ∧ theChamberBaleIsCarried ∧ cradleLoadBecomesInactive

/-- The table load switch becomes active (R110): a CARRIED bale moves to an empty TABLE as ON_TABLE and the transit timer and the
stopwatch stop; otherwise SENSOR_FAULT goes to all three roles and no record changes. -/
def Obligations.TableLoadBecomesActive : Prop :=
  ∀ s : State,
    (∀ b, s.hub.tracker.cradle = some b → b.stage = .carried → s.hub.tracker.table = none →
      exec .tableLoadActive s = took s ({ s.hub with
        inputs := { s.hub.inputs with tableLoad := true },
        tracker := { s.hub.tracker with
          cradle := none, table := some { b with stage := .onTable }, transit := none, stopwatch := none } }.postTo
        .baleMoved [.ch, .wr, .ct])) ∧
    (s.hub.tracker.stageAt .cradle ≠ some .carried ∨ s.hub.tracker.table ≠ none →
      exec .tableLoadActive s = took s ({ s.hub with inputs := { s.hub.inputs with tableLoad := true } }.postTo
        .sensorFault [.ch, .wr, .ct]))

/-- The table load switch becomes inactive (R114, R121): a DROPPING bale is logged as DROPPED with the field clock as drop time;
an ON_TABLE, WRAPPING or WRAPPED one is logged in its stage with UNPLANNED, SENSOR_FAULT posted and a MOVING ring stopped; an
empty table ignores the edge. -/
def Sys2Proof.Machine.Says.tableLoadBecomesInactive : Prop :=
  ∀ s : State, s.hub.tracker.stagesAgree → ∃ t, exec .tableLoadInactive s = .next t ∧
    t.hub.inputs = { s.hub.inputs with tableLoad := false } ∧ t.hub.tracker.table = none ∧
    (match s.hub.tracker.table with
      | none => t.hub.tracker.log = s.hub.tracker.log ∧ t.hub.notices = s.hub.notices ∧ t.hub.claims = s.hub.claims
      | some b =>
        let full := decide (32 ≤ s.hub.tracker.log.length)
        let oldest := if 32 ≤ s.hub.tracker.log.length then 1 else 0
        let planned := decide (b.stage = .dropping)
        t.hub.tracker.log = s.hub.tracker.log.drop oldest ++ [{ b with
            stage := if planned then .dropped else b.stage,
            flags := { b.flags with
              unplanned := b.flags.unplanned || !planned, logDisplaced := b.flags.logDisplaced || full },
            dropTime := some s.hub.clock.seconds }] ∧
          (∀ r, pendingFor t .baleMoved r) ∧
          (s.hub.tracker.log.length = 23 → pendingFor t .logHigh .ct) ∧
          (planned = true → t.hub.claims = s.hub.claims ∧ t.hub.arbiter = s.hub.arbiter) ∧
          (planned = false → ∀ r, pendingFor t .sensorFault r) ∧
          (planned = false → s.hub.queueAgrees → (s.hub.record .ring).state = .moving →
            t.hub.record .ring = kept s (s.hub.record .ring) .sensor))

/-- What a removal from the table does, in its order (R79, R90, R114, R121): the record logged with its notices; when unplanned
SENSOR_FAULT to all three roles, and a MOVING ring stopped with the service after it. -/
def Sys2Proof.Machine.Says.theTableBaleIsLogged : Prop :=
  ∀ (s : State) (b : Bale), s.hub.tracker.table = some b → Place.table.admits b.stage = true → s.hub.queueAgrees →
    let planned := decide (b.stage = .dropping)
    let moved := { s.hub with
      inputs := { s.hub.inputs with tableLoad := false },
      tracker := { s.hub.tracker with table := none, log := appended s.hub.tracker.log (intoLog s b planned) } }.postTo
        .baleMoved [.ch, .wr, .ct]
    let high := if s.hub.tracker.log.length = 23 then moved.postTo .logHigh [.ct] else moved
    let faulted := high.postTo .sensorFault [.ch, .wr, .ct]
    exec .tableLoadInactive s = took s (
      if planned = true then high
      else if (s.hub.record .ring).state = .moving then
        (endedHub faulted .ring (kept s (s.hub.record .ring) .sensor)).service
      else faulted)

/-- The table load switch becomes inactive: its outcome, and the order of what it does (R79, R90, R114, R121). -/
def Obligations.TableLoadBecomesInactive : Prop :=
  tableLoadBecomesInactive ∧ theTableBaleIsLogged

/-- An edge of the pre-chamber full input evaluates FEED HOLD again, with FEED_HOLD to CH and CT when it goes from deasserted to
asserted; an edge that finds the output asserted already, or leaves it deasserted, posts nothing (R117). -/
def Obligations.PrechamberEdgeSetsFeedHold : Prop :=
  ∀ (s : State) (level : Bool),
    let held := level = true ∧ (s.hub.tracker.stageAt .chamber = some .binding ∨
      s.hub.tracker.stageAt .chamber = some .bound ∨ s.hub.tracker.stageAt .chamber = some .ejecting)
    ∃ t, exec (.prechamberFullEdge level) s = .next t ∧
      t.hub.inputs = { s.hub.inputs with prechamberFull := level } ∧ (t.hub.tracker.feedHold = true ↔ held) ∧
      (held → s.hub.tracker.feedHold = false → pendingFor t .feedHold .ch ∧ pendingFor t .feedHold .ct) ∧
      (held → s.hub.tracker.feedHold = false → t.hub.notices = (s.hub.postTo .feedHold [.ch, .ct]).notices) ∧
      (¬ held ∨ s.hub.tracker.feedHold = true → t.hub.notices = s.hub.notices) ∧
      t.hub.tracker = { s.hub.tracker with feedHold := t.hub.tracker.feedHold } ∧ t.hub.claims = s.hub.claims

/-! ### Net and film -/

/-- A net pulse is counted while the chamber bale is BINDING and the feed active, and has no effect otherwise (R125). -/
def Sys2Proof.Machine.Says.netPulsesAreCounted : Prop :=
  ∀ s : State,
    (s.hub.tracker.stageAt .chamber ≠ some .binding ∨ s.hub.inputs.netFeed = false → exec .netPulse s = took s s.hub) ∧
    ∀ b n, s.hub.tracker.chamber = some b → b.stage = .binding → b.net = some n → s.hub.inputs.netFeed = true →
      n.pulses + 1 ≠ n.target → exec .netPulse s = took s { s.hub with tracker := { s.hub.tracker with
        chamber := some { b with net := some { n with pulses := n.pulses + 1 } } } }

/-- The pulse that reaches the net target makes the bale BOUND, stops the net timers and posts BALE_MOVED to all and NET_DONE to CH
and CT (R104, R126). -/
def Sys2Proof.Machine.Says.netTargetIsReached : Prop :=
  ∀ (s : State) (b : Bale) (n : NetPart), s.hub.tracker.chamber = some b → b.stage = .binding → b.net = some n →
    s.hub.inputs.netFeed = true → n.pulses + 1 = n.target → ∃ t, exec .netPulse s = .next t ∧
      t.hub.tracker.chamber = some { b with stage := .bound, net := some ⟨n.target, n.target⟩ } ∧
      t.hub.counter = { s.hub.counter with watch := .off, startTimer := none, gapTimer := none } ∧
      (∀ r, pendingFor t .baleMoved r) ∧ pendingFor t .netDone .ch ∧ pendingFor t .netDone .ct ∧
      t.hub.claims = s.hub.claims ∧ t.hub.arbiter = s.hub.arbiter ∧ t.hub.tracker.table = s.hub.tracker.table

/-- A net pulse: not counted, counted, and reaching the target (R104, R125, R126). -/
def Obligations.NetPulsesAreTaken : Prop :=
  netPulsesAreCounted ∧ netTargetIsReached

/-- An edge of the net feed, by the net watch state (R128): ten cells, and a timer started at NET_GAP_LIMIT in FEEDING alone. -/
def Obligations.NetFeedEdges : Prop :=
  ∀ (s : State) (active : Bool),
    let c := s.hub.counter
    exec (.netFeedEdge active) s = took s { s.hub with
      inputs := { s.hub.inputs with netFeed := active },
      counter :=
        match c.watch, active with
        | .off, true => c
        | .off, false => c
        | .startWait, true => { c with watch := .feeding, startTimer := none }
        | .startWait, false => c
        | .feeding, true => c
        | .feeding, false => { c with watch := .gapWait, gapTimer := some (s.hub.params.netGapLimit * 10) }
        | .gapWait, true => { c with watch := .feeding, gapTimer := none }
        | .gapWait, false => c
        | .halted, true => { c with watch := .feeding }
        | .halted, false => c }

/-- The net start and net gap timers run out: HALTED, the flag in the chamber bale's record, NET_FAULT to CH and CT, the stage and
the pulses kept (R105, R129, R130). -/
def Obligations.NetTimersRunOut : Prop :=
  ∀ (s : State) (left : Nat) (b : Bale), s.hub.tracker.chamber = some b →
    (s.hub.counter.startTimer = some left → exec .netStartTimeout s = took s ({ s.hub with
      counter := { s.hub.counter with watch := .halted, startTimer := none },
      tracker := { s.hub.tracker with chamber := some { b with flags := { b.flags with netMiss := true } } } }.postTo
        .netFault [.ch, .ct])) ∧
    (s.hub.counter.gapTimer = some left → exec .netGapTimeout s = took s ({ s.hub with
      counter := { s.hub.counter with watch := .halted, gapTimer := none },
      tracker := { s.hub.tracker with chamber := some { b with flags := { b.flags with netShort := true } } } }.postTo
        .netFault [.ch, .ct]))

/-- A revolution event raises the layers of a WRAPPING bale by the READY dispensers, and adds nothing to any other (R133); at the
film target the bale is WRAPPED with BALE_MOVED to all three roles and FILM_DONE to WR and CT, and a RING motion of the RUN kind in
flight is converted to TO RING_PARK (R69, R134). -/
def Obligations.RevolutionsCountLayers : Prop :=
  ∀ h : Hub, (h.tracker.stageAt .table ≠ some .wrapping → h.revolution = h) ∧
    ∀ (b : Bale) (f : FilmPart), h.tracker.table = some b → b.stage = .wrapping → b.film = some f →
    let n := f.layers + ((if h.counter.dispenserA = .ready then 1 else 0) + (if h.counter.dispenserB = .ready then 1 else 0))
    let x := h.record .ring
    (n < f.target → h.revolution = { h with tracker := { h.tracker with
      table := some { b with film := some { f with layers := n } } } }) ∧
    (f.target ≤ n → h.revolution.tracker = { h.tracker with
        table := some { b with stage := .wrapped, film := some { f with layers := n } } } ∧
      h.revolution.record .ring =
        (if inFlight x ∧ x.target = .run then { x with target := .to h.params.ringPark } else x) ∧
      (∀ a, a ≠ .ring → h.revolution.record a = h.record a) ∧
      (∀ r, (h.revolution.notices.get r).pending.getLsbD Notice.baleMoved.number = true) ∧
      (h.revolution.notices.get .wr).pending.getLsbD Notice.filmDone.number = true ∧
      (h.revolution.notices.get .ct).pending.getLsbD Notice.filmDone.number = true ∧
      h.revolution.arbiter = h.arbiter ∧ h.revolution.counter = h.counter)

/-- A film-break edge (R135, R136): ignored when it is to inactive or the dispenser is BROKEN; otherwise the dispenser is BROKEN,
FILM_BREAK goes to WR and CT, and the break is captured while the table bale is WRAPPING. While the other dispenser is still READY
that is all, by an equation for the whole part. -/
def Sys2Proof.Machine.Says.filmBreakIsTaken : Prop :=
  ∀ (s : State) (d : Dispenser),
    exec (.filmBreakEdge d false) s = took s (s.hub.setBreakInput d false) ∧
    (s.hub.counter.dispenser d = .broken → exec (.filmBreakEdge d true) s = took s (s.hub.setBreakInput d true)) ∧
    (s.hub.counter.dispenser d = .ready → ∃ t, exec (.filmBreakEdge d true) s = .next t ∧
      t.hub.counter = s.hub.counter.setDispenser d .broken ∧ pendingFor t .filmBreak .wr ∧ pendingFor t .filmBreak .ct ∧
      (s.hub.tracker.stageAt .table ≠ some .wrapping →
        t.hub.tracker.table.map (fun b => (b.film, b.flags)) = s.hub.tracker.table.map (fun b => (b.film, b.flags))) ∧
      (s.hub.counter.readyCount = 2 →
        t.hub.claims = s.hub.claims ∧ t.hub.arbiter = s.hub.arbiter ∧
        (s.hub.tracker.stageAt .table ≠ some .wrapping → t.hub.tracker = s.hub.tracker) ∧
        t.hub = { (s.hub.postTo .filmBreak [.wr, .ct]).setBreakInput d true with
          counter := s.hub.counter.setDispenser d .broken,
          tracker := { s.hub.tracker with table := t.hub.tracker.table } }) ∧
      ∀ b f, s.hub.tracker.table = some b → b.stage = .wrapping → b.film = some f →
        t.hub.tracker.table = some (if f.breaks.length < 4 then
          { b with film := some { f with breaks := f.breaks ++ [⟨d, f.layers, s.hub.sampler.ringPosition⟩] } }
          else { b with flags := { b.flags with breaksOver := true } }))

/-- The edge that makes the second dispenser BROKEN stops a RING MOVING in the RUN kind with FILM_OUT, and leaves a ring moving to
an angle, or standing, as it is (R30, R137). -/
def Sys2Proof.Machine.Says.filmOutStopsTheRing : Prop :=
  ∀ (s : State) (d : Dispenser), sound s → s.hub.counter.readyCount = 1 → s.hub.counter.dispenser d = .ready →
    ∃ t, exec (.filmBreakEdge d true) s = .next t ∧
      ((s.hub.record .ring).state = .moving → (s.hub.record .ring).target = .run →
        t.hub.record .ring = kept s (s.hub.record .ring) .filmOut ∧ t.hub.claims.valves.ring = .off) ∧
      ((s.hub.record .ring).state ≠ .moving ∨ (s.hub.record .ring).target ≠ .run →
        t.hub.claims = s.hub.claims ∧ t.hub.arbiter = s.hub.arbiter)

/-- The stop of film out is followed by the service (R30, R90): with `k` the part at the edge, before any stop, the outcome is the
service after the end of the ring's motion. -/
def Sys2Proof.Machine.Says.serviceFollowsFilmOut : Prop :=
  ∀ (s : State) (d : Dispenser), sound s → s.hub.counter.readyCount = 1 → s.hub.counter.dispenser d = .ready →
    (s.hub.record .ring).state = .moving → (s.hub.record .ring).target = .run →
    ∃ k : Hub, k.claims = s.hub.claims ∧ k.arbiter = s.hub.arbiter ∧ k.sampler = s.hub.sampler ∧ k.map = s.hub.map ∧
      k.params = s.hub.params ∧ k.tracker.chamber = s.hub.tracker.chamber ∧ k.tracker.cradle = s.hub.tracker.cradle ∧
      k.counter = s.hub.counter.setDispenser d .broken ∧
      exec (.filmBreakEdge d true) s =
        took s (endedHub k .ring (kept s (s.hub.record .ring) .filmOut)).service

/-- A film-break edge, its capture, and film out (R30, R90, R135 to R137). -/
def Obligations.FilmBreaksAreTaken : Prop :=
  filmBreakIsTaken ∧ filmOutStopsTheRing ∧ serviceFollowsFilmOut

/-! ### Notices -/

/-- A posting adds the kind to the recipient's pending set and brings the line into agreement; other ports keep theirs (R142). -/
def Sys2Proof.Machine.Says.postingAddsTheKind : Prop :=
  ∀ (h : Hub) (n : Notice) (r q : Role),
    ((h.post n r).notices.get r).pending = (h.notices.get r).pending ||| n.bit ∧
      ((h.post n r).notices.get r).enable = (h.notices.get r).enable ∧
      (((h.post n r).notices.get r).line = true ↔
        ((h.notices.get r).pending ||| n.bit) &&& (h.notices.get r).enable ≠ 0#17) ∧
      (q ≠ r → (h.post n r).notices.get q = h.notices.get q) ∧ { h.post n r with notices := h.notices } = h

/-- NOTICE_READ gives the pending and the enable set of its own port and changes nothing (R146). -/
def Sys2Proof.Machine.Says.noticeReadIsTaken : Prop :=
  ∀ (s : State) (r : Role), exec (.noticeRead r) s =
    replied s 0x51#8 s.hub .ok (kindChars (s.hub.notices.get r).pending ++ kindChars (s.hub.notices.get r).enable)

/-- NOTICE_CLEAR removes the named kinds from its own port's pending set and answers with the set before and the sets after; a kind
above 16 is refused (R147). -/
def Sys2Proof.Machine.Says.noticeClearIsTaken : Prop :=
  ∀ (s : State) (r : Role) (k : KindBits),
    let p := s.hub.notices.get r
    let left := p.pending &&& ~~~(k.setWidth 17)
    exec (.noticeClear r k) s =
      if 2 ^ 17 ≤ k.toNat then replied s 0x52#8 s.hub .badValue []
      else replied s 0x52#8 { s.hub with notices := s.hub.notices.set r ⟨left, p.enable, left &&& p.enable != 0#17⟩ } .ok
        (kindChars p.pending ++ kindChars left ++ kindChars p.enable)

/-- NOTICE_MASK replaces its own port's enable set; a kind above 16 is refused (R148). -/
def Sys2Proof.Machine.Says.noticeMaskIsTaken : Prop :=
  ∀ (s : State) (r : Role) (k : KindBits),
    let p := s.hub.notices.get r
    let enable := k.setWidth 17
    exec (.noticeMask r k) s =
      if 2 ^ 17 ≤ k.toNat then replied s 0x53#8 s.hub .badValue []
      else replied s 0x53#8 { s.hub with notices := s.hub.notices.set r ⟨p.pending, enable, p.pending &&& enable != 0#17⟩ } .ok
        (kindChars p.pending ++ kindChars enable)

/-- Posting, NOTICE_READ, NOTICE_CLEAR and NOTICE_MASK (R142, R146 to R148). -/
def Obligations.NoticeItemsAreTaken : Prop :=
  postingAddsTheKind ∧ noticeReadIsTaken ∧ noticeClearIsTaken ∧ noticeMaskIsTaken

/-! ### Parameters and modes -/

/-- The value at an index, 0 at an index that holds no parameter (R151, R153). -/
def Sys2Proof.Machine.Says.valueAt (s : State) (index : Nat) : Quad :=
  match index with
  | 0 => BitVec.ofNat 32 s.hub.params.flowBudget
  | 1 => BitVec.ofNat 32 s.hub.params.demand.flap
  | 2 => BitVec.ofNat 32 s.hub.params.demand.tailgate
  | 3 => BitVec.ofNat 32 s.hub.params.demand.cradle
  | 4 => BitVec.ofNat 32 s.hub.params.demand.ring
  | 5 => BitVec.ofNat 32 s.hub.params.demand.tilt
  | 6 => BitVec.ofNat 32 s.hub.params.demand.cutter
  | 7 => if s.hub.params.urgentOk.flap then 1#32 else 0#32
  | 8 => if s.hub.params.urgentOk.tailgate then 1#32 else 0#32
  | 9 => if s.hub.params.urgentOk.cradle then 1#32 else 0#32
  | 10 => if s.hub.params.urgentOk.ring then 1#32 else 0#32
  | 11 => if s.hub.params.urgentOk.tilt then 1#32 else 0#32
  | 12 => if s.hub.params.urgentOk.cutter then 1#32 else 0#32
  | 13 => s.hub.params.claimants.flap.setWidth 32
  | 14 => s.hub.params.claimants.tailgate.setWidth 32
  | 15 => s.hub.params.claimants.cradle.setWidth 32
  | 16 => s.hub.params.claimants.ring.setWidth 32
  | 17 => s.hub.params.claimants.tilt.setWidth 32
  | 18 => s.hub.params.claimants.cutter.setWidth 32
  | 19 => BitVec.ofNat 32 s.hub.params.tolerance.flap
  | 20 => BitVec.ofNat 32 s.hub.params.tolerance.tailgate
  | 21 => BitVec.ofNat 32 s.hub.params.tolerance.cradle
  | 22 => BitVec.ofNat 32 s.hub.params.tolerance.ring
  | 23 => BitVec.ofNat 32 s.hub.params.tolerance.tilt
  | 24 => BitVec.ofNat 32 s.hub.params.tolerance.cutter
  | 25 => BitVec.ofNat 32 s.hub.params.ringPark
  | 26 => BitVec.ofNat 32 s.hub.params.slopeLimit
  | 27 => BitVec.ofNat 32 s.hub.params.claimLease
  | 28 => BitVec.ofNat 32 s.hub.params.waitLimit
  | 29 => BitVec.ofNat 32 s.hub.params.netTarget
  | 30 => BitVec.ofNat 32 s.hub.params.netStartLimit
  | 31 => BitVec.ofNat 32 s.hub.params.netGapLimit
  | 32 => BitVec.ofNat 32 s.hub.params.filmTarget
  | 33 => BitVec.ofNat 32 s.hub.params.tableLateLimit
  | 34 => s.hub.clock.seconds
  | 35 => BitVec.ofNat 32 s.hub.tracker.nextNumber
  | _ => 0#32

/-- PARAM_GET gives the value at an index, 0 at an index that holds no parameter, and changes nothing (R153). -/
def Sys2Proof.Machine.Says.paramGetIsTaken : Prop :=
  ∀ (s : State) (r : Role) (i : Byte),
    exec (.paramGet r i) s = replied s 0x31#8 s.hub .ok (i :: u32 (valueAt s i.toNat))

/-- A row of the parameter table (R151): the roles of its writer column, whether its mode column reads SETUP, and its range. -/
structure Sys2Proof.Machine.Says.ParamRow where
  writers : List Role
  setupOnly : Bool
  least : Nat
  greatest : Nat

/-- The parameter table (R151); CLAIMANTS takes any three bits and URGENT_OK no or yes (R154); none where an index holds no
parameter. -/
def Sys2Proof.Machine.Says.paramRow (index : Nat) : Option ParamRow :=
  if index = 0 then some ⟨[.ct], true, 0, 250⟩
  else if index ≤ 6 then some ⟨[.ct], true, 0, 100⟩
  else if index ≤ 12 then some ⟨[.ct], true, 0, 1⟩
  else if index ≤ 18 then some ⟨[.ct], true, 0, 7⟩
  else if index ≤ 24 then some ⟨[.ct], true, 0, 63⟩
  else
    match index with
    | 25 => some ⟨[.ct], true, 0, 719⟩
    | 26 => some ⟨[.ct], true, 0, 250⟩
    | 27 => some ⟨[.ct], false, 1, 120⟩
    | 28 => some ⟨[.ct], false, 1, 60⟩
    | 29 => some ⟨[.ch, .ct], false, 4, 255⟩
    | 30 => some ⟨[.ch, .ct], false, 1, 20⟩
    | 31 => some ⟨[.ch, .ct], false, 2, 50⟩
    | 32 => some ⟨[.wr, .ct], false, 2, 60⟩
    | 33 => some ⟨[.ct], false, 10, 600⟩
    | 34 => some ⟨[], false, 0, 4294967295⟩
    | 35 => some ⟨[], false, 1, 65535⟩
    | _ => none

/-- The parameters after a value is written at an index (R154). -/
def Sys2Proof.Machine.Says.writtenAt (q : Params) (index v : Nat) : Params :=
  match index with
  | 0 => { q with flowBudget := v }
  | 1 => { q with demand := { q.demand with flap := v } }
  | 2 => { q with demand := { q.demand with tailgate := v } }
  | 3 => { q with demand := { q.demand with cradle := v } }
  | 4 => { q with demand := { q.demand with ring := v } }
  | 5 => { q with demand := { q.demand with tilt := v } }
  | 6 => { q with demand := { q.demand with cutter := v } }
  | 7 => { q with urgentOk := { q.urgentOk with flap := decide (v = 1) } }
  | 8 => { q with urgentOk := { q.urgentOk with tailgate := decide (v = 1) } }
  | 9 => { q with urgentOk := { q.urgentOk with cradle := decide (v = 1) } }
  | 10 => { q with urgentOk := { q.urgentOk with ring := decide (v = 1) } }
  | 11 => { q with urgentOk := { q.urgentOk with tilt := decide (v = 1) } }
  | 12 => { q with urgentOk := { q.urgentOk with cutter := decide (v = 1) } }
  | 13 => { q with claimants := { q.claimants with flap := BitVec.ofNat 3 v } }
  | 14 => { q with claimants := { q.claimants with tailgate := BitVec.ofNat 3 v } }
  | 15 => { q with claimants := { q.claimants with cradle := BitVec.ofNat 3 v } }
  | 16 => { q with claimants := { q.claimants with ring := BitVec.ofNat 3 v } }
  | 17 => { q with claimants := { q.claimants with tilt := BitVec.ofNat 3 v } }
  | 18 => { q with claimants := { q.claimants with cutter := BitVec.ofNat 3 v } }
  | 19 => { q with tolerance := { q.tolerance with flap := v } }
  | 20 => { q with tolerance := { q.tolerance with tailgate := v } }
  | 21 => { q with tolerance := { q.tolerance with cradle := v } }
  | 22 => { q with tolerance := { q.tolerance with ring := v } }
  | 23 => { q with tolerance := { q.tolerance with tilt := v } }
  | 24 => { q with tolerance := { q.tolerance with cutter := v } }
  | 25 => { q with ringPark := v }
  | 26 => { q with slopeLimit := v }
  | 27 => { q with claimLease := v }
  | 28 => { q with waitLimit := v }
  | 29 => { q with netTarget := v }
  | 30 => { q with netStartLimit := v }
  | 31 => { q with netGapLimit := v }
  | 32 => { q with filmTarget := v }
  | 33 => { q with tableLateLimit := v }
  | _ => q

/-- PARAM_SET in the order of R154: an index without parameter, a role outside the writer column, a SETUP parameter in another mode, a
value out of range, and else the write (R151, R152). That the first of these returns the value 0 is the model's reading (log 18). -/
def Sys2Proof.Machine.Says.paramSetIsTaken : Prop :=
  ∀ (s : State) (r : Role) (i : Byte) (v : Half),
    exec (.paramSet r i v) s =
      match paramRow i.toNat with
      | none => replied s 0x32#8 s.hub .ok (i :: u32 0#32)
      | some row =>
        if r ∉ row.writers then replied s 0x32#8 s.hub .notAllowed []
        else if row.setupOnly = true ∧ s.hub.control.mode ≠ .setup then
          replied s 0x32#8 s.hub .wrongMode (i :: u32 (valueAt s i.toNat))
        else if v.toNat < row.least ∨ row.greatest < v.toNat then replied s 0x32#8 s.hub .badValue []
        else replied s 0x32#8 { s.hub with params := writtenAt s.hub.params i.toNat v.toNat } .ok (i :: u32 (v.setWidth 32))

/-- PARAM_GET and PARAM_SET (R151 to R154; log 18). -/
def Obligations.ParametersAreReadAndSet : Prop :=
  paramGetIsTaken ∧ paramSetIsTaken

/-- MODE_SET (R158), with the map check at the entry to RUN (R40). -/
def Obligations.ModeSetIsTaken : Prop :=
  ∀ (s : State) (r : Role) (m : Byte),
    let lawful := fun a => (s.hub.map.get a).bounds.toList.Pairwise (· < ·) ∧
      ∀ v, v ∈ (s.hub.map.get a).bounds.toList → 1 ≤ v ∧ v ≤ (if a = .ring then 719 else 4094)
    (r ≠ .ct → exec (.modeSet r m) s = replied s 0x41#8 s.hub .notAllowed []) ∧
    (1 < m.toNat → exec (.modeSet .ct m) s = replied s 0x41#8 s.hub .badValue []) ∧
    (m.toNat ≤ 1 → s.hub.control.restartPending = true ∨ s.hub.control.mode = .stopped →
      exec (.modeSet .ct m) s = replied s 0x41#8 s.hub .wrongMode (u8 s.hub.control.mode.code)) ∧
    (s.hub.control.restartPending = false →
      (s.hub.control.mode = .setup → exec (.modeSet .ct 0#8) s = replied s 0x41#8 s.hub .ok [0#8]) ∧
      (s.hub.control.mode = .run → exec (.modeSet .ct 1#8) s = replied s 0x41#8 s.hub .ok [1#8]) ∧
      (s.hub.control.mode = .setup → (∀ a, lawful a) → exec (.modeSet .ct 1#8) s = replied s 0x41#8
        { s.hub with control := { s.hub.control with mode := .run, mapChecked := true } } .ok [1#8]) ∧
      (s.hub.control.mode = .setup → ∀ a, ¬ lawful a → (∀ b : Axis, b.number < a.number → lawful b) →
        exec (.modeSet .ct 1#8) s = replied s 0x41#8 s.hub .mapInvalid [0#8, axisCode a]))

/-- Leaving RUN, by MODE_SET SETUP or by the stop chain, drops every claim with cause MODE, empties the queue, takes every flow
back and turns every valve off, in one event (R58, R96, R159, R160). -/
def Sys2Proof.Machine.Says.leavingRunDropsTheClaims : Prop :=
  ∀ s : State, sound s → s.hub.control.mode = .run →
    let dropAll := fun t : State =>
      (∀ a, t.hub.record a = if (s.hub.record a).state = .idle then s.hub.record a else dropped (s.hub.record a) .mode) ∧
      (∀ a, t.hub.claims.valves.get a = .off) ∧ t.hub.arbiter = ⟨0, [], []⟩ ∧
      (∀ a q, (s.hub.record a).holder = some q → pendingFor t (.axis a) q ∧ pendingFor t (.axis a) .ct) ∧
      t.hub.tracker = s.hub.tracker ∧ t.hub.counter = s.hub.counter ∧ t.hub.map = s.hub.map ∧ t.hub.params = s.hub.params
    (s.hub.control.restartPending = false → ∃ t, exec (.modeSet .ct 0#8) s = .next t ∧ dropAll t ∧
      t.hub.control = { s.hub.control with mode := .setup } ∧ t.hub.lastEntry = some ⟨0x41#8, ⟨.ok, [0#8]⟩⟩) ∧
    ∃ t, exec .stopInputActive s = .next t ∧ dropAll t ∧
      t.hub.control = { s.hub.control with mode := .stopped, stopLatch := true } ∧
      t.hub.inputs = { s.hub.inputs with stop := true } ∧ ∀ q, pendingFor t .stopLatched q

/-- The stop input outside RUN: STOPPED with the latch set and STOP_LATCHED to all three roles; becoming inactive, only the level
is recorded (R160). -/
def Sys2Proof.Machine.Says.stopInputEdges : Prop :=
  ∀ s : State,
    (s.hub.control.mode ≠ .run → exec .stopInputActive s = took s ({ s.hub with
      inputs := { s.hub.inputs with stop := true },
      control := { s.hub.control with mode := .stopped, stopLatch := true } }.postTo .stopLatched [.ch, .wr, .ct])) ∧
    exec .stopInputInactive s = took s { s.hub with inputs := { s.hub.inputs with stop := false } }

/-- The stop input in every mode, and MODE_SET SETUP in RUN (R58, R96, R159, R160). -/
def Obligations.StopChainIsTaken : Prop :=
  leavingRunDropsTheClaims ∧ stopInputEdges

/-- CLEAR_STOP (R162). -/
def Obligations.ClearStopIsTaken : Prop :=
  ∀ (s : State) (r : Role),
    let c := s.hub.control
    exec (.clearStop r) s =
      if r ≠ .ct then replied s 0x42#8 s.hub .notAllowed []
      else if c.restartPending = true ∨ (c.mode = .stopped ∧ s.hub.inputs.stop = true) then
        replied s 0x42#8 s.hub .wrongMode (u8 c.mode.code ++ bool8 s.hub.inputs.stop)
      else if c.mode = .stopped then
        replied s 0x42#8 { s.hub with control := { c with mode := .setup, stopLatch := false } } .ok [0#8, 0#8]
      else replied s 0x42#8 s.hub .ok (u8 c.mode.code ++ bool8 s.hub.inputs.stop)

/-- RESTART is refused from CH and WR and in RUN, and is pending otherwise (R163). -/
def Sys2Proof.Machine.Says.restartIsTaken : Prop :=
  ∀ (s : State) (r : Role),
    exec (.restart r) s =
      if r ≠ .ct then replied s 0x43#8 s.hub .notAllowed []
      else if s.hub.control.mode = .run then replied s 0x43#8 s.hub .wrongMode []
      else replied s 0x43#8 { s.hub with control := { s.hub.control with restartPending := true } } .ok
        (u8 s.hub.control.lastReset.code ++ u8 s.hub.control.mode.code)

/-- The part right after a restart has taken effect, before a held frame is handed over (R8, R17, R132, R150, R164, R177). That the
ring's validity and zone stay until the next sample is the model's reading (log 9). That the handler stays with a frame of port A or
B it has in hand is the model's choice (log 22): no rule of the spec says what becomes of such a frame. -/
def Sys2Proof.Machine.Says.restartedHub (h : Hub) : Hub :=
  let dropFrame := fun p : Port => { p with receiver := match p.receiver with | .collecting _ _ => .waitMark | x => x }
  { h with
    notices := State.reset.hub.notices, claims := State.reset.hub.claims, arbiter := State.reset.hub.arbiter,
    sampler := { h.sampler with
      ringReferenced := false, ringPosition := 0, fresh := true,
      sense := { h.sampler.sense with ring := { h.sampler.sense.ring with position := 0 } } },
    counter := ⟨if h.tracker.stageAt .chamber = some .binding then
      (if h.inputs.netFeed then .feeding else .halted) else .off, none, none, .ready, .ready⟩,
    tracker := { h.tracker with transit := none, stopwatch := none },
    control := { mode := if h.inputs.stop then .stopped else .setup, stopLatch := h.inputs.stop,
                 mapChecked := h.control.mapChecked, lastReset := .restart, restartPending := false },
    ports := ⟨dropFrame h.ports.ch, dropFrame h.ports.wr,
      { dropFrame h.ports.ct with sending := none, replyPending := false }⟩ }

/-- What a restart resets and what it keeps when it takes effect, at the end of port C's reply (R163, R164, R177), with the hand-over of
a held frame after it (R175). That the ring's validity and zone stay until the next sample (log 9), and that the handler keeps a frame of
port A or B it has in hand (log 22, DESIGN CHOICE), are the model's. -/
def Sys2Proof.Machine.Says.restartTakesEffect : Prop :=
  ∀ s : State, s.hub.control.restartPending = true → s.hub.ports.ct.sending ≠ none →
    exec (.replySent .ct) s = took s (restartedHub s.hub).handOver

/-- RESTART_EFFECT as a moment of its own is the model's reading (log 13): with a restart pending it has the same effect, unless the handler
still has the frame of port C in hand; in that case, and with no restart pending, it changes nothing. As at the end of port C's reply,
the ring's validity and zone (log 9) and a frame of port A or B in the handler's hand (log 22, DESIGN CHOICE) stay by the model's
choice. -/
def Sys2Proof.Machine.Says.restartEffectIsTaken : Prop :=
  ∀ s : State,
    let inHand := (∃ f, s.hub.handler = .handed .ct f) ∨ ∃ items built refused, s.hub.handler = .taking .ct items built refused
    (s.hub.control.restartPending = true → ¬ inHand → exec .restartEffect s = took s (restartedHub s.hub).handOver) ∧
    (s.hub.control.restartPending = false ∨ inHand → exec .restartEffect s = took s s.hub)

/-- RESTART, and the restart when it takes effect (R163, R164, R175, R177). The model's own: the ring's validity and zone until the next
sample (log 9), RESTART_EFFECT as a moment (log 13), and a frame of port A or B in hand, which stays (log 22, DESIGN CHOICE). -/
def Obligations.RestartIsTakenAndTakesEffect : Prop :=
  restartIsTaken ∧ restartTakesEffect ∧ restartEffectIsTaken

/-! ### Ports and frames -/

/-- What a receiver does with a character, short of completing a frame (R166 to R168, R176). That a marked character with a low stop bit
posts nothing in HOLDING is the model's reading (log 15). -/
def Sys2Proof.Machine.Says.charactersAreReceived : Prop :=
  ∀ (s : State) (r : Role) (data : Byte) (mark good : Bool),
    let p := s.hub.ports.get r
    let into := fun x => took s { s.hub with ports := s.hub.ports.set r { p with receiver := x } }
    let begun := if 2 ≤ data.toNat ∧ data.toNat ≤ 254 then Receiver.collecting data [] else .waitMark
    match p.receiver with
    | .waitMark => exec (.characterReceive r data mark good) s = if mark && good then into begun else took s s.hub
    | .collecting n chars =>
      (good = false → exec (.characterReceive r data mark good) s = into .waitMark) ∧
      (good = true → mark = true → exec (.characterReceive r data mark good) s = into begun) ∧
      (good = true → mark = false → chars.length + 1 ≠ n.toNat →
        exec (.characterReceive r data mark good) s = into (.collecting n (chars ++ [data])))
    | .holding _ => exec (.characterReceive r data mark good) s =
      if mark && good then took s (s.hub.post .linkOverrun r) else took s s.hub

/-- The character that completes a frame: with the handler free, the port's reply-pending condition clear and no other frame held
the frame is handed over at once; with the handler busy, or every port that holds a frame still reply-pending, it is held behind
the frames held before. In every case it joins them, and a hand-over follows (R167, R171, R175; heldFramesAreHandedOver). -/
def Sys2Proof.Machine.Says.completeFramesAreHandedOverOrHeld : Prop :=
  ∀ (s : State) (r : Role) (data n : Byte) (chars : List Byte), (s.hub.ports.get r).receiver = .collecting n chars →
    chars.length + 1 = n.toNat →
    let p := s.hub.ports.get r
    (s.hub.handler = .free → p.replyPending = false → s.hub.heldOrder = [] →
      exec (.characterReceive r data false true) s = took s { s.hub with
        ports := s.hub.ports.set r { p with receiver := .waitMark, replyPending := true },
        handler := .handed r ⟨n, chars ++ [data]⟩ }) ∧
    (s.hub.handler ≠ .free ∨
        (p.replyPending = true ∧ ∀ q, q ∈ s.hub.heldOrder → (s.hub.ports.get q).replyPending = true) →
      exec (.characterReceive r data false true) s = took s { s.hub with
        ports := s.hub.ports.set r { p with receiver := .holding ⟨n, chars ++ [data]⟩ },
        heldOrder := s.hub.heldOrder ++ [r] }) ∧
    exec (.characterReceive r data false true) s = took s { s.hub with
      ports := s.hub.ports.set r { p with receiver := .holding ⟨n, chars ++ [data]⟩ },
      heldOrder := s.hub.heldOrder ++ [r] }.handOver

/-- A character at a port's receiver (R166 to R168, R171, R175, R176; log 15). -/
def Obligations.CharactersAreTaken : Prop :=
  charactersAreReceived ∧ completeFramesAreHandedOverOrHeld

/-- The reply of these entries is begun on port `r`, the handler is free, and a held frame that may go is handed over (R171, R174). -/
def Sys2Proof.Machine.Says.replyBegun (h : Hub) (r : Role) (es : List Entry) : Hub :=
  { h with
    handler := .free, ports := h.ports.set r { h.ports.get r with sending := some (replyFrame es) } }.handOver

/-- A frame whose sum fails is answered with one CHECK_ERROR entry and none of its items is taken (R169). -/
def Sys2Proof.Machine.Says.badSumsAreAnsweredCheckError : Prop :=
  ∀ (s : State) (r : Role) (f : Frame) (n : Nat), s.hub.handler = .handed r f → charSum (f.count :: f.chars) ≠ 0xFF#8 →
    exec (.frameHandover r n) s = took s (replyBegun s.hub r [⟨0x00#8, ⟨.checkError, []⟩⟩])

/-- A frame with a good sum and more than four items is answered with one BAD_REQUEST entry and none of its items is taken
(R170). -/
def Sys2Proof.Machine.Says.tooManyItemsAreAnsweredBadRequest : Prop :=
  ∀ (s : State) (r : Role) (f : Frame) (n : Nat), s.hub.handler = .handed r f →
    charSum (f.count :: f.chars) = 0xFF#8 → 4 < f.items.length →
    exec (.frameHandover r n) s = took s (replyBegun s.hub r [⟨0x00#8, ⟨.badRequest, []⟩⟩])

/-- The two replies to a frame as a whole, character by character, the mark bit on the first alone (R166, R173, R179). -/
def Sys2Proof.Machine.Says.wholeFrameReplies : Prop :=
  replyFrame [⟨0x00#8, ⟨.checkError, []⟩⟩] = [⟨true, 4#8⟩, ⟨false, 0#8⟩, ⟨false, 14#8⟩, ⟨false, 0#8⟩, ⟨false, 0xED#8⟩] ∧
  replyFrame [⟨0x00#8, ⟨.badRequest, []⟩⟩] = [⟨true, 4#8⟩, ⟨false, 0#8⟩, ⟨false, 11#8⟩, ⟨false, 0#8⟩, ⟨false, 0xF0#8⟩]

/-- The test of the reply space (R173): the largest entry of the request, of the requests before it and 3 for each later item within
253 characters; it is made on the requests alone. -/
def Sys2Proof.Machine.Says.theSpaceTestIsOnRequests : Prop :=
  (∀ (code : Byte) (built : List Entry) (later : Nat), replyFits code built later = true ↔
    largestEntry code + (built.map (fun e => largestEntry e.request)).sum + 3 * later ≤ 253) ∧
  ∀ (code : Byte) (built other : List Entry) (later : Nat), built.map (·.request) = other.map (·.request) →
    replyFits code built later = replyFits code other later

/-- A frame of one to four items with a good sum is taken item by item, none refused as yet, and taking several of its items is
taking one after another (R170, R171). -/
def Sys2Proof.Machine.Says.itemsAreTakenInOrder : Prop :=
  (∀ (s : State) (r : Role) (f : Frame) (n : Nat), s.hub.handler = .handed r f →
    charSum (f.count :: f.chars) = 0xFF#8 → f.items.length ≤ 4 →
    exec (.frameHandover r n) s =
      exec (.frameHandover r n) { s with hub := { s.hub with handler := .taking r f.items [] false } }) ∧
  ∀ (s t : State) (r : Role) (x y : RawItem) (rest : List RawItem) (built : List Entry) (refused : Bool) (n : Nat),
    s.hub.handler = .taking r (x :: y :: rest) built refused → exec (.frameHandover r 1) s = .next t →
    exec (.frameHandover r (n + 1)) s = exec (.frameHandover r n) t

/-- What becomes of an item when none before it was refused (R170, R172, R173): malformed, it is answered BAD_REQUEST, whatever room is
left (the model's reading, log 12); well formed without room for its reply, SKIPPED; otherwise it has its request's own effect and
outcome. -/
def Sys2Proof.Machine.Says.itemTaken (r : Role) (x : RawItem) (built : List Entry) (later : Nat) (h k : Hub) (a : Answer) : Prop :=
  (x.residue = true ∨ decodeItem r x.code x.args = none → k = h ∧ a = ⟨.badRequest, []⟩) ∧
  ∀ i, x.residue = false → decodeItem r x.code x.args = some i →
    (replyFits x.code built later = false → k = h ∧ a = ⟨.skipped, []⟩) ∧
    ∀ code g, itemOf i = some (code, g) → replyFits x.code built later = true → (k, a) = g h

/-- An item with others after it and none refused before it: the next item then stands to be taken, and the refusal met is kept in
mind (R171 to R173). -/
def Sys2Proof.Machine.Says.anItemAmongOthersIsTaken : Prop :=
  ∀ (s : State) (r : Role) (x y : RawItem) (rest : List RawItem) (built : List Entry),
    s.hub.handler = .taking r (x :: y :: rest) built false →
    ∃ (k : Hub) (a : Answer), itemTaken r x built (rest.length + 1) s.hub k a ∧
      exec (.frameHandover r 1) s = took s { k with
        handler := .taking r (y :: rest) (built ++ [⟨x.code, a⟩]) a.verdict.isRefusal, lastEntry := some ⟨x.code, a⟩ }

/-- The last item of a frame ends it: it is taken as any item, or SKIPPED after a refusal, and the reply of all the entries is begun
(R171 to R174). -/
def Sys2Proof.Machine.Says.theLastItemEndsTheFrame : Prop :=
  ∀ (s : State) (r : Role) (x : RawItem) (built : List Entry) (refused : Bool),
    s.hub.handler = .taking r [x] built refused →
    ∃ (k : Hub) (a : Answer), (refused = false → itemTaken r x built 0 s.hub k a) ∧
      (refused = true → k = s.hub ∧ a = ⟨.skipped, []⟩) ∧
      exec (.frameHandover r 1) s =
        took s (replyBegun { k with lastEntry := some ⟨x.code, a⟩ } r (built ++ [⟨x.code, a⟩]))

/-- A good frame of one item: the item is taken with its request's own effect, and its reply is sent with its entry (R171, R173,
R174). -/
def Sys2Proof.Machine.Says.aFrameOfOneItemIsTaken : Prop :=
  ∀ (s : State) (r : Role) (f : Frame) (x : RawItem) (i : Instr) (code : Byte) (g : Hub → Hub × Answer),
    s.hub.handler = .handed r f → charSum (f.count :: f.chars) = 0xFF#8 → f.items = [x] →
    x.residue = false → decodeItem r x.code x.args = some i → itemOf i = some (code, g) →
    let taken := g { s.hub with handler := .taking r [x] [] false }
    let e : Entry := ⟨x.code, taken.2⟩
    exec (.frameHandover r 1) s = took s (replyBegun { taken.1 with lastEntry := some e } r [e])

/-- Once an item of a frame has been refused, the items after it are answered SKIPPED and not taken (R172). -/
def Sys2Proof.Machine.Says.itemsAfterARefusalAreSkipped : Prop :=
  ∀ (s : State) (r : Role) (x y : RawItem) (rest : List RawItem) (built : List Entry),
    s.hub.handler = .taking r (x :: y :: rest) built true →
    exec (.frameHandover r 1) s = took s { s.hub with
      handler := .taking r (y :: rest) (built ++ [⟨x.code, ⟨.skipped, []⟩⟩]) true,
      lastEntry := some ⟨x.code, ⟨.skipped, []⟩⟩ }

/-- A frame handed over: its sum, its items one by one, the reply space, and what follows a refusal (R166, R169 to R174). That
FRAME_HANDOVER takes up to n items is the model's choice (log 11), and so is a malformed item without room (log 12). -/
def Obligations.FramesAreTaken : Prop :=
  badSumsAreAnsweredCheckError ∧ tooManyItemsAreAnsweredBadRequest ∧ wholeFrameReplies ∧ theSpaceTestIsOnRequests ∧
    itemsAreTakenInOrder ∧ aFrameOfOneItemIsTaken ∧ anItemAmongOthersIsTaken ∧ itemsAfterARefusalAreSkipped ∧
    theLastItemEndsTheFrame

/-- The last character of a reply is sent on a port with no restart due: the transmitter is idle and the reply-pending condition
clear, and a held frame that may go is handed over (R174, R175). On a port that sends nothing there is no such moment. -/
def Sys2Proof.Machine.Says.repliesEnd : Prop :=
  ∀ (s : State) (r : Role),
    ((s.hub.ports.get r).sending = none → exec (.replySent r) s = took s s.hub) ∧
    ((s.hub.ports.get r).sending ≠ none → ¬ (r = .ct ∧ s.hub.control.restartPending = true) →
      exec (.replySent r) s = took s { s.hub with
        ports := s.hub.ports.set r { s.hub.ports.get r with sending := none, replyPending := false } }.handOver)

/-- The hand-over of a held frame (R171, R175): with the handler free, the first port in the order of completion whose reply-pending
condition is clear hands its frame over, with the condition set and the receiver back in WAIT_MARK; with the handler busy, or every
such port reply-pending, nothing is handed over. -/
def Sys2Proof.Machine.Says.heldFramesAreHandedOver : Prop :=
  ∀ h : Hub,
    (h.handler ≠ .free → h.handOver = h) ∧
    ((∀ q, q ∈ h.heldOrder → (h.ports.get q).replyPending = true) → h.handOver = h) ∧
    ∀ (before after : List Role) (q : Role) (f : Frame), h.handler = .free → h.heldOrder = before ++ q :: after →
      (∀ p, p ∈ before → (h.ports.get p).replyPending = true) → (h.ports.get q).replyPending = false →
      (h.ports.get q).receiver = .holding f →
      h.handOver = { h with
        ports := h.ports.set q { h.ports.get q with receiver := .waitMark, replyPending := true },
        handler := .handed q f, heldOrder := before ++ after }

/-- Every reply frame sums to 0xFF, its sum character included, and has the mark bit set on its first character alone (R166, R173). -/
def Sys2Proof.Machine.Says.repliesSumToFF : Prop :=
  ∀ es : List Entry, charSum ((replyFrame es).map (·.data)) = 0xFF#8 ∧
    ∃ first rest, replyFrame es = first :: rest ∧ first.mark = true ∧ ∀ c, c ∈ rest → c.mark = false

/-- A reply is its count, its entries in order and its sum (R173, R179). -/
def Sys2Proof.Machine.Says.repliesHoldTheirEntries : Prop :=
  ∀ es : List Entry, ∃ sum, (replyFrame es).map (·.data) =
    BitVec.ofNat 8 ((es.flatMap Entry.chars).length + 1) :: es.flatMap Entry.chars ++ [sum]

/-- The end of a reply, the hand-over of a held frame, and the form of every reply (R166, R171, R173 to R175). -/
def Obligations.RepliesAreSent : Prop :=
  repliesEnd ∧ heldFramesAreHandedOver ∧ repliesSumToFF ∧ repliesHoldTheirEntries

/-! ### Invariants -/

/-- A state right after reset is sound in every respect of the statements below. -/
def Obligations.ResetIsSound : Prop :=
  let h := State.reset.hub
  h.linesAgree ∧ h.valvesAgree ∧ h.latchAgrees ∧ h.feedHoldAgrees ∧ h.tracker.stagesAgree ∧ h.tracker.logBounded ∧
    h.tracker.numbersAgree ∧ h.countsAgree ∧ h.motionAgrees ∧ h.bandsAgree ∧ h.interlocked ∧ h.zonesAgree ∧ h.paramsAgree ∧
    (h.control.mode = .run → h.mapFailure = none)

/-- THE INTERLOCK: no step leaves an axis MOVING in a direction that its own zone forbids or that the current zone entry of
another axis does not permit (R35). -/
def Obligations.StepKeepsTheInterlock : Prop :=
  ∀ s t : State, s.hub.interlocked → s.hub.motionAgrees → s.hub.zonesAgree → step s = .next t →
    t.hub.interlocked ∧ t.hub.zonesAgree

/-- THE FLOW POOL: every step keeps the flow in use at the sum of DEMAND over the MOVING axes and within FLOW_BUDGET, the grant
order and the wait queue in agreement with the axis records, the records with their states, and the queue in its three bands (R16, R58,
R82 to R84). -/
def Obligations.StepKeepsMotionAndFlow : Prop :=
  (∀ s t : State, s.hub.motionAgrees → step s = .next t → t.hub.motionAgrees) ∧
  ∀ s t : State, s.hub.bandsAgree → step s = .next t → t.hub.bandsAgree

/-- Every step keeps the attention lines in agreement with the notice sets (R149). -/
def Obligations.StepKeepsTheAttentionLines : Prop :=
  ∀ s t : State, s.hub.linesAgree → step s = .next t → t.hub.linesAgree

/-- Every step keeps each valve enable output on exactly while its axis is MOVING in that direction (R71). -/
def Obligations.StepKeepsTheValves : Prop :=
  ∀ s t : State, s.hub.valvesAgree → step s = .next t → t.hub.valvesAgree

/-- Every step keeps the stop latch set exactly while the mode is STOPPED (R157), and RUN only over a map that passes the check
(R40). -/
def Obligations.StepKeepsModeAndMap : Prop :=
  ∀ s t : State, s.hub.latchAgrees → (s.hub.control.mode = .run → s.hub.mapFailure = none) → step s = .next t →
    t.hub.latchAgrees ∧ (t.hub.control.mode = .run → t.hub.mapFailure = none)

/-- Every step keeps FEED HOLD asserted exactly while its condition holds, and every record in a stage of its place (R100, R117). -/
def Obligations.StepKeepsFeedHoldAndStages : Prop :=
  ∀ s t : State, s.hub.feedHoldAgrees → s.hub.tracker.stagesAgree → step s = .next t →
    t.hub.feedHoldAgrees ∧ t.hub.tracker.stagesAgree

/-- Every step keeps the bale numbers apart across the queue and the log, and the log within 32 records (R101, R121). -/
def Obligations.StepKeepsBaleNumbersApart : Prop :=
  ∀ s t : State, s.hub.tracker.numbersAgree → s.hub.tracker.logBounded → step s = .next t →
    t.hub.tracker.numbersAgree ∧ t.hub.tracker.logBounded

/-- Every step keeps the counts of every record within their bounds (R126, R134, R136). -/
def Obligations.StepKeepsTheCounts : Prop := ∀ s t : State, s.hub.countsAgree → step s = .next t → t.hub.countsAgree

/-- Every step keeps every parameter within its range (R151, R154). -/
def Obligations.StepKeepsTheParameters : Prop := ∀ s t : State, s.hub.paramsAgree → step s = .next t → t.hub.paramsAgree
end

