-- ==== Sys2Proof/Laws/State.lean ====
section
/-! SUPPORT. Reading the state after one update of it: each lemma is true by definition, so that no proof unfolds a record
update. -/

namespace Sys2Proof.Machine

/-! ### One axis, one role -/

@[simp] theorem PerAxis.get_all {α : Type} (x : α) (a : Axis) : (PerAxis.all x).get a = x := by cases a <;> rfl

@[simp] theorem PerRole.get_all {α : Type} (x : α) (r : Role) : (PerRole.all x).get r = x := by cases r <;> rfl

@[simp] theorem PerAxis.get_set_self {α : Type} (p : PerAxis α) (a : Axis) (x : α) : (p.set a x).get a = x := by
  cases a <;> rfl

theorem PerAxis.get_set_of_ne {α : Type} (p : PerAxis α) {a b : Axis} (x : α) (h : b ≠ a) : (p.set a x).get b = p.get b := by
  cases a <;> cases b <;> first | rfl | exact absurd rfl h

theorem PerAxis.get_set {α : Type} (p : PerAxis α) (a b : Axis) (x : α) :
    (p.set a x).get b = if b = a then x else p.get b := by
  cases a <;> cases b <;> rfl

@[simp] theorem PerAxis.set_set {α : Type} (p : PerAxis α) (a : Axis) (x y : α) : (p.set a x).set a y = p.set a y := by
  cases a <;> rfl

@[simp] theorem PerAxis.set_get {α : Type} (p : PerAxis α) (a : Axis) : p.set a (p.get a) = p := by cases a <;> rfl

theorem PerAxis.ext_get {α : Type} {p q : PerAxis α} (h : ∀ a, p.get a = q.get a) : p = q := by
  cases p; cases q
  have h0 := h .flap; have h1 := h .tailgate; have h2 := h .cradle
  have h3 := h .ring; have h4 := h .tilt; have h5 := h .cutter
  simp only [PerAxis.get] at h0 h1 h2 h3 h4 h5
  subst h0 h1 h2 h3 h4 h5; rfl

@[simp] theorem PerRole.get_set_self {α : Type} (p : PerRole α) (r : Role) (x : α) : (p.set r x).get r = x := by
  cases r <;> rfl

theorem PerRole.get_set_of_ne {α : Type} (p : PerRole α) {r q : Role} (x : α) (h : q ≠ r) : (p.set r x).get q = p.get q := by
  cases r <;> cases q <;> first | rfl | exact absurd rfl h

theorem PerRole.get_set {α : Type} (p : PerRole α) (r q : Role) (x : α) :
    (p.set r x).get q = if q = r then x else p.get q := by
  cases r <;> cases q <;> rfl

@[simp] theorem PerRole.set_set {α : Type} (p : PerRole α) (r : Role) (x y : α) : (p.set r x).set r y = p.set r y := by
  cases r <;> rfl

@[simp] theorem PerRole.set_get {α : Type} (p : PerRole α) (r : Role) : p.set r (p.get r) = p := by cases r <;> rfl

/-! ### Records and valves -/

@[simp] theorem Hub.record_setRecord_self (h : Hub) (a : Axis) (x : AxisRecord) : (h.setRecord a x).record a = x :=
  PerAxis.get_set_self _ _ _

theorem Hub.record_setRecord_of_ne (h : Hub) {a b : Axis} (x : AxisRecord) (hb : b ≠ a) :
    (h.setRecord a x).record b = h.record b := PerAxis.get_set_of_ne _ _ hb

theorem Hub.record_setRecord (h : Hub) (a b : Axis) (x : AxisRecord) :
    (h.setRecord a x).record b = if b = a then x else h.record b := PerAxis.get_set _ _ _ _

@[simp] theorem Hub.setRecord_setRecord (h : Hub) (a : Axis) (x y : AxisRecord) :
    (h.setRecord a x).setRecord a y = h.setRecord a y := by simp [Hub.setRecord]

@[simp] theorem Hub.setRecord_record (h : Hub) (a : Axis) : h.setRecord a (h.record a) = h := by
  simp [Hub.setRecord, Hub.record]

@[simp] theorem Hub.record_setValves (h : Hub) (a b : Axis) (v : Valves) : (h.setValves a v).record b = h.record b := rfl

@[simp] theorem Hub.valves_setRecord (h : Hub) (a : Axis) (x : AxisRecord) :
    (h.setRecord a x).claims.valves = h.claims.valves := rfl

@[simp] theorem Hub.valves_setValves (h : Hub) (a : Axis) (v : Valves) :
    (h.setValves a v).claims.valves = h.claims.valves.set a v := rfl

@[simp] theorem Hub.records_setValves (h : Hub) (a : Axis) (v : Valves) :
    (h.setValves a v).claims.records = h.claims.records := rfl

/-! ### The other fields after a record is replaced -/

@[simp] theorem Hub.setRecord_inputs (h : Hub) (a : Axis) (x : AxisRecord) : (h.setRecord a x).inputs = h.inputs := rfl
@[simp] theorem Hub.setRecord_sampler (h : Hub) (a : Axis) (x : AxisRecord) : (h.setRecord a x).sampler = h.sampler := rfl
@[simp] theorem Hub.setRecord_map (h : Hub) (a : Axis) (x : AxisRecord) : (h.setRecord a x).map = h.map := rfl
@[simp] theorem Hub.setRecord_arbiter (h : Hub) (a : Axis) (x : AxisRecord) : (h.setRecord a x).arbiter = h.arbiter := rfl
@[simp] theorem Hub.setRecord_tracker (h : Hub) (a : Axis) (x : AxisRecord) : (h.setRecord a x).tracker = h.tracker := rfl
@[simp] theorem Hub.setRecord_counter (h : Hub) (a : Axis) (x : AxisRecord) : (h.setRecord a x).counter = h.counter := rfl
@[simp] theorem Hub.setRecord_notices (h : Hub) (a : Axis) (x : AxisRecord) : (h.setRecord a x).notices = h.notices := rfl
@[simp] theorem Hub.setRecord_params (h : Hub) (a : Axis) (x : AxisRecord) : (h.setRecord a x).params = h.params := rfl
@[simp] theorem Hub.setRecord_clock (h : Hub) (a : Axis) (x : AxisRecord) : (h.setRecord a x).clock = h.clock := rfl
@[simp] theorem Hub.setRecord_control (h : Hub) (a : Axis) (x : AxisRecord) : (h.setRecord a x).control = h.control := rfl
@[simp] theorem Hub.setRecord_ports (h : Hub) (a : Axis) (x : AxisRecord) : (h.setRecord a x).ports = h.ports := rfl
@[simp] theorem Hub.setRecord_handler (h : Hub) (a : Axis) (x : AxisRecord) : (h.setRecord a x).handler = h.handler := rfl
@[simp] theorem Hub.setRecord_heldOrder (h : Hub) (a : Axis) (x : AxisRecord) : (h.setRecord a x).heldOrder = h.heldOrder := rfl
@[simp] theorem Hub.setRecord_lastEntry (h : Hub) (a : Axis) (x : AxisRecord) : (h.setRecord a x).lastEntry = h.lastEntry := rfl

/-! ### The other fields after valve outputs are set -/

@[simp] theorem Hub.setValves_inputs (h : Hub) (a : Axis) (v : Valves) : (h.setValves a v).inputs = h.inputs := rfl
@[simp] theorem Hub.setValves_sampler (h : Hub) (a : Axis) (v : Valves) : (h.setValves a v).sampler = h.sampler := rfl
@[simp] theorem Hub.setValves_map (h : Hub) (a : Axis) (v : Valves) : (h.setValves a v).map = h.map := rfl
@[simp] theorem Hub.setValves_arbiter (h : Hub) (a : Axis) (v : Valves) : (h.setValves a v).arbiter = h.arbiter := rfl
@[simp] theorem Hub.setValves_tracker (h : Hub) (a : Axis) (v : Valves) : (h.setValves a v).tracker = h.tracker := rfl
@[simp] theorem Hub.setValves_counter (h : Hub) (a : Axis) (v : Valves) : (h.setValves a v).counter = h.counter := rfl
@[simp] theorem Hub.setValves_notices (h : Hub) (a : Axis) (v : Valves) : (h.setValves a v).notices = h.notices := rfl
@[simp] theorem Hub.setValves_params (h : Hub) (a : Axis) (v : Valves) : (h.setValves a v).params = h.params := rfl
@[simp] theorem Hub.setValves_clock (h : Hub) (a : Axis) (v : Valves) : (h.setValves a v).clock = h.clock := rfl
@[simp] theorem Hub.setValves_control (h : Hub) (a : Axis) (v : Valves) : (h.setValves a v).control = h.control := rfl
@[simp] theorem Hub.setValves_ports (h : Hub) (a : Axis) (v : Valves) : (h.setValves a v).ports = h.ports := rfl
@[simp] theorem Hub.setValves_handler (h : Hub) (a : Axis) (v : Valves) : (h.setValves a v).handler = h.handler := rfl
@[simp] theorem Hub.setValves_heldOrder (h : Hub) (a : Axis) (v : Valves) : (h.setValves a v).heldOrder = h.heldOrder := rfl
@[simp] theorem Hub.setValves_lastEntry (h : Hub) (a : Axis) (v : Valves) : (h.setValves a v).lastEntry = h.lastEntry := rfl

/-! ### The other fields after a posting to one role -/

@[simp] theorem Hub.post_inputs (h : Hub) (n : Notice) (r : Role) : (h.post n r).inputs = h.inputs := rfl
@[simp] theorem Hub.post_sampler (h : Hub) (n : Notice) (r : Role) : (h.post n r).sampler = h.sampler := rfl
@[simp] theorem Hub.post_map (h : Hub) (n : Notice) (r : Role) : (h.post n r).map = h.map := rfl
@[simp] theorem Hub.post_claims (h : Hub) (n : Notice) (r : Role) : (h.post n r).claims = h.claims := rfl
@[simp] theorem Hub.post_arbiter (h : Hub) (n : Notice) (r : Role) : (h.post n r).arbiter = h.arbiter := rfl
@[simp] theorem Hub.post_tracker (h : Hub) (n : Notice) (r : Role) : (h.post n r).tracker = h.tracker := rfl
@[simp] theorem Hub.post_counter (h : Hub) (n : Notice) (r : Role) : (h.post n r).counter = h.counter := rfl
@[simp] theorem Hub.post_params (h : Hub) (n : Notice) (r : Role) : (h.post n r).params = h.params := rfl
@[simp] theorem Hub.post_clock (h : Hub) (n : Notice) (r : Role) : (h.post n r).clock = h.clock := rfl
@[simp] theorem Hub.post_control (h : Hub) (n : Notice) (r : Role) : (h.post n r).control = h.control := rfl
@[simp] theorem Hub.post_ports (h : Hub) (n : Notice) (r : Role) : (h.post n r).ports = h.ports := rfl
@[simp] theorem Hub.post_handler (h : Hub) (n : Notice) (r : Role) : (h.post n r).handler = h.handler := rfl
@[simp] theorem Hub.post_heldOrder (h : Hub) (n : Notice) (r : Role) : (h.post n r).heldOrder = h.heldOrder := rfl
@[simp] theorem Hub.post_lastEntry (h : Hub) (n : Notice) (r : Role) : (h.post n r).lastEntry = h.lastEntry := rfl

@[simp] theorem Hub.record_post (h : Hub) (n : Notice) (r : Role) (b : Axis) : (h.post n r).record b = h.record b := rfl

/-! ### The other fields after a reply entry is built -/

@[simp] theorem Hub.answered_inputs (h : Hub) (c : Byte) (x : Answer) : (h.answered c x).inputs = h.inputs := rfl
@[simp] theorem Hub.answered_sampler (h : Hub) (c : Byte) (x : Answer) : (h.answered c x).sampler = h.sampler := rfl
@[simp] theorem Hub.answered_map (h : Hub) (c : Byte) (x : Answer) : (h.answered c x).map = h.map := rfl
@[simp] theorem Hub.answered_claims (h : Hub) (c : Byte) (x : Answer) : (h.answered c x).claims = h.claims := rfl
@[simp] theorem Hub.answered_arbiter (h : Hub) (c : Byte) (x : Answer) : (h.answered c x).arbiter = h.arbiter := rfl
@[simp] theorem Hub.answered_tracker (h : Hub) (c : Byte) (x : Answer) : (h.answered c x).tracker = h.tracker := rfl
@[simp] theorem Hub.answered_counter (h : Hub) (c : Byte) (x : Answer) : (h.answered c x).counter = h.counter := rfl
@[simp] theorem Hub.answered_notices (h : Hub) (c : Byte) (x : Answer) : (h.answered c x).notices = h.notices := rfl
@[simp] theorem Hub.answered_params (h : Hub) (c : Byte) (x : Answer) : (h.answered c x).params = h.params := rfl
@[simp] theorem Hub.answered_clock (h : Hub) (c : Byte) (x : Answer) : (h.answered c x).clock = h.clock := rfl
@[simp] theorem Hub.answered_control (h : Hub) (c : Byte) (x : Answer) : (h.answered c x).control = h.control := rfl
@[simp] theorem Hub.answered_ports (h : Hub) (c : Byte) (x : Answer) : (h.answered c x).ports = h.ports := rfl
@[simp] theorem Hub.answered_handler (h : Hub) (c : Byte) (x : Answer) : (h.answered c x).handler = h.handler := rfl
@[simp] theorem Hub.answered_heldOrder (h : Hub) (c : Byte) (x : Answer) : (h.answered c x).heldOrder = h.heldOrder := rfl

@[simp] theorem Hub.record_answered (h : Hub) (c : Byte) (x : Answer) (b : Axis) : (h.answered c x).record b = h.record b := rfl

/-! ### The other fields after a change of mode -/

@[simp] theorem Hub.setMode_inputs (h : Hub) (m : Mode) : (h.setMode m).inputs = h.inputs := rfl
@[simp] theorem Hub.setMode_sampler (h : Hub) (m : Mode) : (h.setMode m).sampler = h.sampler := rfl
@[simp] theorem Hub.setMode_map (h : Hub) (m : Mode) : (h.setMode m).map = h.map := rfl
@[simp] theorem Hub.setMode_claims (h : Hub) (m : Mode) : (h.setMode m).claims = h.claims := rfl
@[simp] theorem Hub.setMode_arbiter (h : Hub) (m : Mode) : (h.setMode m).arbiter = h.arbiter := rfl
@[simp] theorem Hub.setMode_tracker (h : Hub) (m : Mode) : (h.setMode m).tracker = h.tracker := rfl
@[simp] theorem Hub.setMode_counter (h : Hub) (m : Mode) : (h.setMode m).counter = h.counter := rfl
@[simp] theorem Hub.setMode_notices (h : Hub) (m : Mode) : (h.setMode m).notices = h.notices := rfl
@[simp] theorem Hub.setMode_params (h : Hub) (m : Mode) : (h.setMode m).params = h.params := rfl
@[simp] theorem Hub.setMode_clock (h : Hub) (m : Mode) : (h.setMode m).clock = h.clock := rfl
@[simp] theorem Hub.setMode_ports (h : Hub) (m : Mode) : (h.setMode m).ports = h.ports := rfl
@[simp] theorem Hub.setMode_handler (h : Hub) (m : Mode) : (h.setMode m).handler = h.handler := rfl
@[simp] theorem Hub.setMode_heldOrder (h : Hub) (m : Mode) : (h.setMode m).heldOrder = h.heldOrder := rfl
@[simp] theorem Hub.setMode_lastEntry (h : Hub) (m : Mode) : (h.setMode m).lastEntry = h.lastEntry := rfl

@[simp] theorem Hub.record_setMode (h : Hub) (m : Mode) (b : Axis) : (h.setMode m).record b = h.record b := rfl

/-! ### The other fields after a port is replaced -/

@[simp] theorem Hub.setPort_inputs (h : Hub) (r : Role) (p : Port) : (h.setPort r p).inputs = h.inputs := rfl
@[simp] theorem Hub.setPort_sampler (h : Hub) (r : Role) (p : Port) : (h.setPort r p).sampler = h.sampler := rfl
@[simp] theorem Hub.setPort_map (h : Hub) (r : Role) (p : Port) : (h.setPort r p).map = h.map := rfl
@[simp] theorem Hub.setPort_claims (h : Hub) (r : Role) (p : Port) : (h.setPort r p).claims = h.claims := rfl
@[simp] theorem Hub.setPort_arbiter (h : Hub) (r : Role) (p : Port) : (h.setPort r p).arbiter = h.arbiter := rfl
@[simp] theorem Hub.setPort_tracker (h : Hub) (r : Role) (p : Port) : (h.setPort r p).tracker = h.tracker := rfl
@[simp] theorem Hub.setPort_counter (h : Hub) (r : Role) (p : Port) : (h.setPort r p).counter = h.counter := rfl
@[simp] theorem Hub.setPort_notices (h : Hub) (r : Role) (p : Port) : (h.setPort r p).notices = h.notices := rfl
@[simp] theorem Hub.setPort_params (h : Hub) (r : Role) (p : Port) : (h.setPort r p).params = h.params := rfl
@[simp] theorem Hub.setPort_clock (h : Hub) (r : Role) (p : Port) : (h.setPort r p).clock = h.clock := rfl
@[simp] theorem Hub.setPort_control (h : Hub) (r : Role) (p : Port) : (h.setPort r p).control = h.control := rfl
@[simp] theorem Hub.setPort_handler (h : Hub) (r : Role) (p : Port) : (h.setPort r p).handler = h.handler := rfl
@[simp] theorem Hub.setPort_heldOrder (h : Hub) (r : Role) (p : Port) : (h.setPort r p).heldOrder = h.heldOrder := rfl
@[simp] theorem Hub.setPort_lastEntry (h : Hub) (r : Role) (p : Port) : (h.setPort r p).lastEntry = h.lastEntry := rfl

@[simp] theorem Hub.record_setPort (h : Hub) (r : Role) (p : Port) (b : Axis) : (h.setPort r p).record b = h.record b := rfl

/-! ### The other fields after notice sets are replaced -/

@[simp] theorem Hub.setNotices_inputs (h : Hub) (r : Role) (p : NoticePort) : (h.setNotices r p).inputs = h.inputs := rfl
@[simp] theorem Hub.setNotices_sampler (h : Hub) (r : Role) (p : NoticePort) : (h.setNotices r p).sampler = h.sampler := rfl
@[simp] theorem Hub.setNotices_map (h : Hub) (r : Role) (p : NoticePort) : (h.setNotices r p).map = h.map := rfl
@[simp] theorem Hub.setNotices_claims (h : Hub) (r : Role) (p : NoticePort) : (h.setNotices r p).claims = h.claims := rfl
@[simp] theorem Hub.setNotices_arbiter (h : Hub) (r : Role) (p : NoticePort) : (h.setNotices r p).arbiter = h.arbiter := rfl
@[simp] theorem Hub.setNotices_tracker (h : Hub) (r : Role) (p : NoticePort) : (h.setNotices r p).tracker = h.tracker := rfl
@[simp] theorem Hub.setNotices_counter (h : Hub) (r : Role) (p : NoticePort) : (h.setNotices r p).counter = h.counter := rfl
@[simp] theorem Hub.setNotices_params (h : Hub) (r : Role) (p : NoticePort) : (h.setNotices r p).params = h.params := rfl
@[simp] theorem Hub.setNotices_clock (h : Hub) (r : Role) (p : NoticePort) : (h.setNotices r p).clock = h.clock := rfl
@[simp] theorem Hub.setNotices_control (h : Hub) (r : Role) (p : NoticePort) : (h.setNotices r p).control = h.control := rfl
@[simp] theorem Hub.setNotices_ports (h : Hub) (r : Role) (p : NoticePort) : (h.setNotices r p).ports = h.ports := rfl
@[simp] theorem Hub.setNotices_handler (h : Hub) (r : Role) (p : NoticePort) : (h.setNotices r p).handler = h.handler := rfl
@[simp] theorem Hub.setNotices_heldOrder (h : Hub) (r : Role) (p : NoticePort) : (h.setNotices r p).heldOrder = h.heldOrder := rfl
@[simp] theorem Hub.setNotices_lastEntry (h : Hub) (r : Role) (p : NoticePort) : (h.setNotices r p).lastEntry = h.lastEntry := rfl

@[simp] theorem Hub.record_setNotices (h : Hub) (r : Role) (p : NoticePort) (b : Axis) : (h.setNotices r p).record b = h.record b := rfl

/-! ### The other fields after a map is written -/

@[simp] theorem Hub.writeMap_inputs (h : Hub) (a : Axis) (m : AxisMap) : (h.writeMap a m).inputs = h.inputs := rfl
@[simp] theorem Hub.writeMap_sampler (h : Hub) (a : Axis) (m : AxisMap) : (h.writeMap a m).sampler = h.sampler := rfl
@[simp] theorem Hub.writeMap_claims (h : Hub) (a : Axis) (m : AxisMap) : (h.writeMap a m).claims = h.claims := rfl
@[simp] theorem Hub.writeMap_arbiter (h : Hub) (a : Axis) (m : AxisMap) : (h.writeMap a m).arbiter = h.arbiter := rfl
@[simp] theorem Hub.writeMap_tracker (h : Hub) (a : Axis) (m : AxisMap) : (h.writeMap a m).tracker = h.tracker := rfl
@[simp] theorem Hub.writeMap_counter (h : Hub) (a : Axis) (m : AxisMap) : (h.writeMap a m).counter = h.counter := rfl
@[simp] theorem Hub.writeMap_notices (h : Hub) (a : Axis) (m : AxisMap) : (h.writeMap a m).notices = h.notices := rfl
@[simp] theorem Hub.writeMap_params (h : Hub) (a : Axis) (m : AxisMap) : (h.writeMap a m).params = h.params := rfl
@[simp] theorem Hub.writeMap_clock (h : Hub) (a : Axis) (m : AxisMap) : (h.writeMap a m).clock = h.clock := rfl
@[simp] theorem Hub.writeMap_ports (h : Hub) (a : Axis) (m : AxisMap) : (h.writeMap a m).ports = h.ports := rfl
@[simp] theorem Hub.writeMap_handler (h : Hub) (a : Axis) (m : AxisMap) : (h.writeMap a m).handler = h.handler := rfl
@[simp] theorem Hub.writeMap_heldOrder (h : Hub) (a : Axis) (m : AxisMap) : (h.writeMap a m).heldOrder = h.heldOrder := rfl
@[simp] theorem Hub.writeMap_lastEntry (h : Hub) (a : Axis) (m : AxisMap) : (h.writeMap a m).lastEntry = h.lastEntry := rfl

@[simp] theorem Hub.record_writeMap (h : Hub) (a : Axis) (m : AxisMap) (b : Axis) : (h.writeMap a m).record b = h.record b := rfl

/-! ### The sampler after a capture, and the pins -/

@[simp] theorem Hub.capture_sampled (h : Hub) (v : Voltages) : (h.capture v).sampler.sampled = true := rfl

@[simp] theorem Hub.capture_fresh (h : Hub) (v : Voltages) : (h.capture v).sampler.fresh = false := rfl

@[simp] theorem Sampler.restarted_sampled (s : Sampler) : s.restarted.sampled = s.sampled := rfl

theorem Hub.pins_of_sampled (h : Hub) (hs : h.sampler.sampled = true) : h.pins = {
    valves := h.claims.valves, feedHold := h.tracker.feedHold,
    attention := ⟨!h.notices.ch.line, !h.notices.wr.line, !h.notices.ct.line⟩ } := if_pos hs

theorem Hub.pins_before_a_sample (h : Hub) (hs : h.sampler.sampled = false) :
    h.pins = { valves := .all .off, feedHold := false, attention := .all true } := if_neg (by simp [hs])

/-! ### Taking an event, taking an item -/

@[simp] theorem State.event_eq (s : State) (f : Hub → Hub) : s.event f = .next { s with hub := f s.hub } := rfl

@[simp] theorem State.item_eq (s : State) (code : Byte) (f : Hub → Hub × Answer) :
    s.item code f = .next { s with hub := (f s.hub).1.answered code (f s.hub).2 } := rfl

end Sys2Proof.Machine
end

