-- ==== Sys2Proof/Laws/Ops.lean ====
section
/-! SUPPORT. What each shared operation of Machine/Ops.lean can do, said once: the fields it leaves alone, the record it writes,
and one induction for the arbiter's service. -/

namespace Sys2Proof.Machine

/-! ### Posting -/

/-- Posting changes the notice sets alone. -/
theorem Hub.postTo_frame (n : Notice) (l : List Role) (h : Hub) : { h.postTo n l with notices := h.notices } = h := by
  induction l generalizing h with
  | nil => rfl
  | cons r l ih => simpa [Hub.postTo, Hub.post] using congrArg (fun k : Hub => { k with notices := h.notices }) (ih (h.post n r))

@[simp] theorem Hub.postTo_inputs (h : Hub) (n : Notice) (l : List Role) : (h.postTo n l).inputs = h.inputs := by
  have e := congrArg Hub.inputs (Hub.postTo_frame n l h); exact e

@[simp] theorem Hub.postTo_sampler (h : Hub) (n : Notice) (l : List Role) : (h.postTo n l).sampler = h.sampler := by
  have e := congrArg Hub.sampler (Hub.postTo_frame n l h); exact e

@[simp] theorem Hub.postTo_map (h : Hub) (n : Notice) (l : List Role) : (h.postTo n l).map = h.map := by
  have e := congrArg Hub.map (Hub.postTo_frame n l h); exact e

@[simp] theorem Hub.postTo_claims (h : Hub) (n : Notice) (l : List Role) : (h.postTo n l).claims = h.claims := by
  have e := congrArg Hub.claims (Hub.postTo_frame n l h); exact e

@[simp] theorem Hub.postTo_arbiter (h : Hub) (n : Notice) (l : List Role) : (h.postTo n l).arbiter = h.arbiter := by
  have e := congrArg Hub.arbiter (Hub.postTo_frame n l h); exact e

@[simp] theorem Hub.postTo_tracker (h : Hub) (n : Notice) (l : List Role) : (h.postTo n l).tracker = h.tracker := by
  have e := congrArg Hub.tracker (Hub.postTo_frame n l h); exact e

@[simp] theorem Hub.postTo_counter (h : Hub) (n : Notice) (l : List Role) : (h.postTo n l).counter = h.counter := by
  have e := congrArg Hub.counter (Hub.postTo_frame n l h); exact e

@[simp] theorem Hub.postTo_params (h : Hub) (n : Notice) (l : List Role) : (h.postTo n l).params = h.params := by
  have e := congrArg Hub.params (Hub.postTo_frame n l h); exact e

@[simp] theorem Hub.postTo_clock (h : Hub) (n : Notice) (l : List Role) : (h.postTo n l).clock = h.clock := by
  have e := congrArg Hub.clock (Hub.postTo_frame n l h); exact e

@[simp] theorem Hub.postTo_control (h : Hub) (n : Notice) (l : List Role) : (h.postTo n l).control = h.control := by
  have e := congrArg Hub.control (Hub.postTo_frame n l h); exact e

@[simp] theorem Hub.postTo_ports (h : Hub) (n : Notice) (l : List Role) : (h.postTo n l).ports = h.ports := by
  have e := congrArg Hub.ports (Hub.postTo_frame n l h); exact e

@[simp] theorem Hub.postTo_handler (h : Hub) (n : Notice) (l : List Role) : (h.postTo n l).handler = h.handler := by
  have e := congrArg Hub.handler (Hub.postTo_frame n l h); exact e

@[simp] theorem Hub.postTo_heldOrder (h : Hub) (n : Notice) (l : List Role) : (h.postTo n l).heldOrder = h.heldOrder := by
  have e := congrArg Hub.heldOrder (Hub.postTo_frame n l h); exact e

@[simp] theorem Hub.postTo_lastEntry (h : Hub) (n : Notice) (l : List Role) : (h.postTo n l).lastEntry = h.lastEntry := by
  have e := congrArg Hub.lastEntry (Hub.postTo_frame n l h); exact e

@[simp] theorem Hub.record_postTo (h : Hub) (n : Notice) (l : List Role) (a : Axis) : (h.postTo n l).record a = h.record a := by
  simp [Hub.record]

@[simp] theorem NoticePort.post_pending (p : NoticePort) (n : Notice) : (p.post n).pending = p.pending ||| n.bit := rfl

@[simp] theorem NoticePort.post_enable (p : NoticePort) (n : Notice) : (p.post n).enable = p.enable := rfl

@[simp] theorem NoticePort.post_line (p : NoticePort) (n : Notice) : (p.post n).line = (p.post n).lineOf := rfl

/-- The sets of every port after a posting to one role. -/
theorem Hub.post_get (h : Hub) (n : Notice) (q r : Role) :
    (h.post n q).notices.get r = if r = q then (h.notices.get q).post n else h.notices.get r :=
  PerRole.get_set _ _ _ _

/-- A posting reaches exactly the roles it names, and leaves every enable set. -/
theorem Hub.postTo_get (n : Notice) (l : List Role) (h : Hub) (r : Role) :
    ((h.postTo n l).notices.get r).pending =
        (if r ∈ l then (h.notices.get r).pending ||| n.bit else (h.notices.get r).pending) ∧
      ((h.postTo n l).notices.get r).enable = (h.notices.get r).enable := by
  induction l generalizing h with
  | nil => simp [Hub.postTo]
  | cons q l ih =>
    have e := ih (h.post n q)
    rw [Hub.post_get] at e
    have hcons : h.postTo n (q :: l) = (h.post n q).postTo n l := rfl
    rw [hcons, e.1, e.2]
    by_cases hq : r = q <;> by_cases hl : r ∈ l <;> simp [hq, hl, BitVec.or_assoc]

/-- Posting brings the line of each port it names into agreement, and leaves the others (R149). -/
theorem Hub.postTo_line (n : Notice) (l : List Role) (h : Hub) (r : Role)
    (hr : (h.notices.get r).line = (h.notices.get r).lineOf) :
    ((h.postTo n l).notices.get r).line = ((h.postTo n l).notices.get r).lineOf := by
  induction l generalizing h with
  | nil => exact hr
  | cons q l ih =>
    apply ih
    rw [Hub.post_get]
    split
    · rfl
    · exact hr

/-- What posting makes of the notice sets depends on the notice sets alone. -/
theorem Hub.postTo_notices_congr (n : Notice) (l : List Role) {h k : Hub} (e : h.notices = k.notices) :
    (h.postTo n l).notices = (k.postTo n l).notices := by
  induction l generalizing h k with
  | nil => exact e
  | cons r l ih => exact ih (by simp [Hub.post, e])

/-! ### Returning flow and leaving the queue -/

@[simp] theorem Hub.returnFlow_inputs (h : Hub) (a : Axis) : (h.returnFlow a).inputs = h.inputs := rfl

@[simp] theorem Hub.returnFlow_sampler (h : Hub) (a : Axis) : (h.returnFlow a).sampler = h.sampler := rfl

@[simp] theorem Hub.returnFlow_map (h : Hub) (a : Axis) : (h.returnFlow a).map = h.map := rfl

@[simp] theorem Hub.returnFlow_counter (h : Hub) (a : Axis) : (h.returnFlow a).counter = h.counter := rfl

@[simp] theorem Hub.returnFlow_params (h : Hub) (a : Axis) : (h.returnFlow a).params = h.params := rfl

@[simp] theorem Hub.returnFlow_clock (h : Hub) (a : Axis) : (h.returnFlow a).clock = h.clock := rfl

@[simp] theorem Hub.returnFlow_control (h : Hub) (a : Axis) : (h.returnFlow a).control = h.control := rfl

@[simp] theorem Hub.returnFlow_ports (h : Hub) (a : Axis) : (h.returnFlow a).ports = h.ports := rfl

@[simp] theorem Hub.returnFlow_handler (h : Hub) (a : Axis) : (h.returnFlow a).handler = h.handler := rfl

@[simp] theorem Hub.returnFlow_heldOrder (h : Hub) (a : Axis) : (h.returnFlow a).heldOrder = h.heldOrder := rfl

@[simp] theorem Hub.returnFlow_lastEntry (h : Hub) (a : Axis) : (h.returnFlow a).lastEntry = h.lastEntry := rfl

@[simp] theorem Hub.returnFlow_tracker (h : Hub) (a : Axis) : (h.returnFlow a).tracker = h.tracker := rfl

@[simp] theorem Hub.returnFlow_notices (h : Hub) (a : Axis) : (h.returnFlow a).notices = h.notices := rfl

@[simp] theorem Hub.dequeue_inputs (h : Hub) (a : Axis) : (h.dequeue a).inputs = h.inputs := rfl

@[simp] theorem Hub.dequeue_sampler (h : Hub) (a : Axis) : (h.dequeue a).sampler = h.sampler := rfl

@[simp] theorem Hub.dequeue_map (h : Hub) (a : Axis) : (h.dequeue a).map = h.map := rfl

@[simp] theorem Hub.dequeue_counter (h : Hub) (a : Axis) : (h.dequeue a).counter = h.counter := rfl

@[simp] theorem Hub.dequeue_params (h : Hub) (a : Axis) : (h.dequeue a).params = h.params := rfl

@[simp] theorem Hub.dequeue_clock (h : Hub) (a : Axis) : (h.dequeue a).clock = h.clock := rfl

@[simp] theorem Hub.dequeue_control (h : Hub) (a : Axis) : (h.dequeue a).control = h.control := rfl

@[simp] theorem Hub.dequeue_ports (h : Hub) (a : Axis) : (h.dequeue a).ports = h.ports := rfl

@[simp] theorem Hub.dequeue_handler (h : Hub) (a : Axis) : (h.dequeue a).handler = h.handler := rfl

@[simp] theorem Hub.dequeue_heldOrder (h : Hub) (a : Axis) : (h.dequeue a).heldOrder = h.heldOrder := rfl

@[simp] theorem Hub.dequeue_lastEntry (h : Hub) (a : Axis) : (h.dequeue a).lastEntry = h.lastEntry := rfl

@[simp] theorem Hub.dequeue_tracker (h : Hub) (a : Axis) : (h.dequeue a).tracker = h.tracker := rfl

@[simp] theorem Hub.dequeue_notices (h : Hub) (a : Axis) : (h.dequeue a).notices = h.notices := rfl

@[simp] theorem Hub.dequeue_claims (h : Hub) (a : Axis) : (h.dequeue a).claims = h.claims := rfl

@[simp] theorem Hub.enqueue_inputs (h : Hub) (a : Axis) (c : WaitClass) : (h.enqueue a c).inputs = h.inputs := rfl

@[simp] theorem Hub.enqueue_sampler (h : Hub) (a : Axis) (c : WaitClass) : (h.enqueue a c).sampler = h.sampler := rfl

@[simp] theorem Hub.enqueue_map (h : Hub) (a : Axis) (c : WaitClass) : (h.enqueue a c).map = h.map := rfl

@[simp] theorem Hub.enqueue_counter (h : Hub) (a : Axis) (c : WaitClass) : (h.enqueue a c).counter = h.counter := rfl

@[simp] theorem Hub.enqueue_params (h : Hub) (a : Axis) (c : WaitClass) : (h.enqueue a c).params = h.params := rfl

@[simp] theorem Hub.enqueue_clock (h : Hub) (a : Axis) (c : WaitClass) : (h.enqueue a c).clock = h.clock := rfl

@[simp] theorem Hub.enqueue_control (h : Hub) (a : Axis) (c : WaitClass) : (h.enqueue a c).control = h.control := rfl

@[simp] theorem Hub.enqueue_ports (h : Hub) (a : Axis) (c : WaitClass) : (h.enqueue a c).ports = h.ports := rfl

@[simp] theorem Hub.enqueue_handler (h : Hub) (a : Axis) (c : WaitClass) : (h.enqueue a c).handler = h.handler := rfl

@[simp] theorem Hub.enqueue_heldOrder (h : Hub) (a : Axis) (c : WaitClass) : (h.enqueue a c).heldOrder = h.heldOrder := rfl

@[simp] theorem Hub.enqueue_lastEntry (h : Hub) (a : Axis) (c : WaitClass) : (h.enqueue a c).lastEntry = h.lastEntry := rfl

@[simp] theorem Hub.enqueue_tracker (h : Hub) (a : Axis) (c : WaitClass) : (h.enqueue a c).tracker = h.tracker := rfl

@[simp] theorem Hub.enqueue_notices (h : Hub) (a : Axis) (c : WaitClass) : (h.enqueue a c).notices = h.notices := rfl

@[simp] theorem Hub.enqueue_claims (h : Hub) (a : Axis) (c : WaitClass) : (h.enqueue a c).claims = h.claims := rfl

@[simp] theorem Hub.record_dequeue (h : Hub) (a b : Axis) : (h.dequeue a).record b = h.record b := rfl

@[simp] theorem Hub.record_enqueue (h : Hub) (a b : Axis) (c : WaitClass) : (h.enqueue a c).record b = h.record b := rfl

theorem Hub.record_returnFlow (h : Hub) (a b : Axis) :
    (h.returnFlow a).record b = if b = a then { h.record a with flow := 0 } else h.record b :=
  PerAxis.get_set _ _ _ _

theorem Hub.returnFlow_valves (h : Hub) (a : Axis) : (h.returnFlow a).claims.valves = h.claims.valves.set a .off := rfl

/-- What undoing a motion leaves of the records: only the flow of a MOVING axis. -/
theorem Hub.record_undoMotion (h : Hub) (a b : Axis) :
    (h.undoMotion a).record b =
      if b = a ∧ (h.record a).state = .moving then { h.record a with flow := 0 } else h.record b := by
  unfold Hub.undoMotion
  split <;> simp_all [Hub.record_returnFlow]

/-- What undoing a motion leaves of the valves: off for a MOVING axis. -/
theorem Hub.undoMotion_valves (h : Hub) (a : Axis) :
    (h.undoMotion a).claims.valves =
      if (h.record a).state = .moving then h.claims.valves.set a .off else h.claims.valves := by
  unfold Hub.undoMotion
  split <;> simp_all [Hub.returnFlow_valves]

/-- What undoing a motion leaves of the arbiter. -/
theorem Hub.undoMotion_arbiter (h : Hub) (a : Axis) :
    (h.undoMotion a).arbiter =
      match (h.record a).state with
      | .moving => { h.arbiter with
          inUse := h.arbiter.inUse - (h.record a).flow, grantOrder := h.arbiter.grantOrder.filter (· ≠ a) }
      | .waiting | .paused => { h.arbiter with queue := h.arbiter.queue.filter (fun e => e.axis ≠ a) }
      | .idle | .claimed => h.arbiter := by
  unfold Hub.undoMotion
  generalize (h.record a).state = g
  cases g <;> rfl

@[simp] theorem Hub.undoMotion_inputs (h : Hub) (a : Axis) : (h.undoMotion a).inputs = h.inputs := by
  unfold Hub.undoMotion; split <;> rfl

@[simp] theorem Hub.undoMotion_sampler (h : Hub) (a : Axis) : (h.undoMotion a).sampler = h.sampler := by
  unfold Hub.undoMotion; split <;> rfl

@[simp] theorem Hub.undoMotion_map (h : Hub) (a : Axis) : (h.undoMotion a).map = h.map := by
  unfold Hub.undoMotion; split <;> rfl

@[simp] theorem Hub.undoMotion_counter (h : Hub) (a : Axis) : (h.undoMotion a).counter = h.counter := by
  unfold Hub.undoMotion; split <;> rfl

@[simp] theorem Hub.undoMotion_params (h : Hub) (a : Axis) : (h.undoMotion a).params = h.params := by
  unfold Hub.undoMotion; split <;> rfl

@[simp] theorem Hub.undoMotion_clock (h : Hub) (a : Axis) : (h.undoMotion a).clock = h.clock := by
  unfold Hub.undoMotion; split <;> rfl

@[simp] theorem Hub.undoMotion_control (h : Hub) (a : Axis) : (h.undoMotion a).control = h.control := by
  unfold Hub.undoMotion; split <;> rfl

@[simp] theorem Hub.undoMotion_ports (h : Hub) (a : Axis) : (h.undoMotion a).ports = h.ports := by
  unfold Hub.undoMotion; split <;> rfl

@[simp] theorem Hub.undoMotion_handler (h : Hub) (a : Axis) : (h.undoMotion a).handler = h.handler := by
  unfold Hub.undoMotion; split <;> rfl

@[simp] theorem Hub.undoMotion_heldOrder (h : Hub) (a : Axis) : (h.undoMotion a).heldOrder = h.heldOrder := by
  unfold Hub.undoMotion; split <;> rfl

@[simp] theorem Hub.undoMotion_lastEntry (h : Hub) (a : Axis) : (h.undoMotion a).lastEntry = h.lastEntry := by
  unfold Hub.undoMotion; split <;> rfl

@[simp] theorem Hub.undoMotion_tracker (h : Hub) (a : Axis) : (h.undoMotion a).tracker = h.tracker := by
  unfold Hub.undoMotion; split <;> rfl

@[simp] theorem Hub.undoMotion_notices (h : Hub) (a : Axis) : (h.undoMotion a).notices = h.notices := by
  unfold Hub.undoMotion; split <;> rfl

/-! ### Ending a motion, dropping a claim -/

@[simp] theorem Hub.endMotion_inputs (h : Hub) (a : Axis) (c : EndCause) : (h.endMotion a c).inputs = h.inputs := by
  simp [Hub.endMotion, Hub.postAxis]

@[simp] theorem Hub.endMotion_sampler (h : Hub) (a : Axis) (c : EndCause) : (h.endMotion a c).sampler = h.sampler := by
  simp [Hub.endMotion, Hub.postAxis]

@[simp] theorem Hub.endMotion_map (h : Hub) (a : Axis) (c : EndCause) : (h.endMotion a c).map = h.map := by
  simp [Hub.endMotion, Hub.postAxis]

@[simp] theorem Hub.endMotion_counter (h : Hub) (a : Axis) (c : EndCause) : (h.endMotion a c).counter = h.counter := by
  simp [Hub.endMotion, Hub.postAxis]

@[simp] theorem Hub.endMotion_params (h : Hub) (a : Axis) (c : EndCause) : (h.endMotion a c).params = h.params := by
  simp [Hub.endMotion, Hub.postAxis]

@[simp] theorem Hub.endMotion_clock (h : Hub) (a : Axis) (c : EndCause) : (h.endMotion a c).clock = h.clock := by
  simp [Hub.endMotion, Hub.postAxis]

@[simp] theorem Hub.endMotion_control (h : Hub) (a : Axis) (c : EndCause) : (h.endMotion a c).control = h.control := by
  simp [Hub.endMotion, Hub.postAxis]

@[simp] theorem Hub.endMotion_ports (h : Hub) (a : Axis) (c : EndCause) : (h.endMotion a c).ports = h.ports := by
  simp [Hub.endMotion, Hub.postAxis]

@[simp] theorem Hub.endMotion_handler (h : Hub) (a : Axis) (c : EndCause) : (h.endMotion a c).handler = h.handler := by
  simp [Hub.endMotion, Hub.postAxis]

@[simp] theorem Hub.endMotion_heldOrder (h : Hub) (a : Axis) (c : EndCause) : (h.endMotion a c).heldOrder = h.heldOrder := by
  simp [Hub.endMotion, Hub.postAxis]

@[simp] theorem Hub.endMotion_lastEntry (h : Hub) (a : Axis) (c : EndCause) : (h.endMotion a c).lastEntry = h.lastEntry := by
  simp [Hub.endMotion, Hub.postAxis]

@[simp] theorem Hub.endMotion_tracker (h : Hub) (a : Axis) (c : EndCause) : (h.endMotion a c).tracker = h.tracker := by
  simp [Hub.endMotion, Hub.postAxis]

@[simp] theorem Hub.dropClaim_inputs (h : Hub) (a : Axis) (c : EndCause) : (h.dropClaim a c).inputs = h.inputs := by
  simp [Hub.dropClaim, Hub.postAxis]

@[simp] theorem Hub.dropClaim_sampler (h : Hub) (a : Axis) (c : EndCause) : (h.dropClaim a c).sampler = h.sampler := by
  simp [Hub.dropClaim, Hub.postAxis]

@[simp] theorem Hub.dropClaim_map (h : Hub) (a : Axis) (c : EndCause) : (h.dropClaim a c).map = h.map := by
  simp [Hub.dropClaim, Hub.postAxis]

@[simp] theorem Hub.dropClaim_counter (h : Hub) (a : Axis) (c : EndCause) : (h.dropClaim a c).counter = h.counter := by
  simp [Hub.dropClaim, Hub.postAxis]

@[simp] theorem Hub.dropClaim_params (h : Hub) (a : Axis) (c : EndCause) : (h.dropClaim a c).params = h.params := by
  simp [Hub.dropClaim, Hub.postAxis]

@[simp] theorem Hub.dropClaim_clock (h : Hub) (a : Axis) (c : EndCause) : (h.dropClaim a c).clock = h.clock := by
  simp [Hub.dropClaim, Hub.postAxis]

@[simp] theorem Hub.dropClaim_control (h : Hub) (a : Axis) (c : EndCause) : (h.dropClaim a c).control = h.control := by
  simp [Hub.dropClaim, Hub.postAxis]

@[simp] theorem Hub.dropClaim_ports (h : Hub) (a : Axis) (c : EndCause) : (h.dropClaim a c).ports = h.ports := by
  simp [Hub.dropClaim, Hub.postAxis]

@[simp] theorem Hub.dropClaim_handler (h : Hub) (a : Axis) (c : EndCause) : (h.dropClaim a c).handler = h.handler := by
  simp [Hub.dropClaim, Hub.postAxis]

@[simp] theorem Hub.dropClaim_heldOrder (h : Hub) (a : Axis) (c : EndCause) : (h.dropClaim a c).heldOrder = h.heldOrder := by
  simp [Hub.dropClaim, Hub.postAxis]

@[simp] theorem Hub.dropClaim_lastEntry (h : Hub) (a : Axis) (c : EndCause) : (h.dropClaim a c).lastEntry = h.lastEntry := by
  simp [Hub.dropClaim, Hub.postAxis]

@[simp] theorem Hub.dropClaim_tracker (h : Hub) (a : Axis) (c : EndCause) : (h.dropClaim a c).tracker = h.tracker := by
  simp [Hub.dropClaim, Hub.postAxis]

/-- The records after a motion ends with the claim kept (R75). -/
theorem Hub.record_endMotion (h : Hub) (a b : Axis) (c : EndCause) :
    (h.endMotion a c).record b =
      if b = a then { h.record a with
        state := .claimed, lease := h.claimLease, lastEnd := c,
        flow := if (h.record a).state = .moving then 0 else (h.record a).flow }
      else h.record b := by
  by_cases hb : b = a
  · subst hb
    by_cases hm : (h.record b).state = .moving <;>
      simp [Hub.endMotion, Hub.postAxis, Hub.record_undoMotion, hm, Hub.claimLease]
  · simp [Hub.endMotion, Hub.postAxis, Hub.record_setRecord_of_ne _ _ hb, Hub.record_undoMotion, hb]

/-- The records after a claim is dropped (R45, R51, R58). -/
theorem Hub.record_dropClaim (h : Hub) (a b : Axis) (c : EndCause) :
    (h.dropClaim a c).record b =
      if b = a then { h.record a with
        state := .idle, holder := none, lastHolder := (h.record a).holder, lease := 0, lastEnd := c,
        flow := if (h.record a).state = .moving then 0 else (h.record a).flow }
      else h.record b := by
  by_cases hb : b = a
  · subst hb
    by_cases hm : (h.record b).state = .moving <;>
      simp [Hub.dropClaim, Hub.postAxis, Hub.record_undoMotion, hm]
  · simp [Hub.dropClaim, Hub.postAxis, Hub.record_setRecord_of_ne _ _ hb, Hub.record_undoMotion, hb]

@[simp] theorem Hub.endMotion_arbiter (h : Hub) (a : Axis) (c : EndCause) :
    (h.endMotion a c).arbiter = (h.undoMotion a).arbiter := by
  simp [Hub.endMotion, Hub.postAxis]

@[simp] theorem Hub.dropClaim_arbiter (h : Hub) (a : Axis) (c : EndCause) :
    (h.dropClaim a c).arbiter = (h.undoMotion a).arbiter := by
  simp [Hub.dropClaim, Hub.postAxis]

@[simp] theorem Hub.endMotion_valves (h : Hub) (a : Axis) (c : EndCause) :
    (h.endMotion a c).claims.valves = (h.undoMotion a).claims.valves := by
  simp [Hub.endMotion, Hub.postAxis]

@[simp] theorem Hub.dropClaim_valves (h : Hub) (a : Axis) (c : EndCause) :
    (h.dropClaim a c).claims.valves = (h.undoMotion a).claims.valves := by
  simp [Hub.dropClaim, Hub.postAxis]

/-- The notices after a motion ends: the axis notice to the holder and to CT (R143). -/
theorem Hub.endMotion_notices (h : Hub) (a : Axis) (c : EndCause) :
    (h.endMotion a c).notices = (h.postAxis a (h.record a).holder).notices := by
  have e : ((h.undoMotion a).record a).holder = (h.record a).holder := by
    rw [Hub.record_undoMotion]; split <;> rfl
  simp only [Hub.endMotion, e]
  exact Hub.postTo_notices_congr _ _ (by simp)

/-- The notices after a claim is dropped: the axis notice to the former holder and to CT (R143). -/
theorem Hub.dropClaim_notices (h : Hub) (a : Axis) (c : EndCause) :
    (h.dropClaim a c).notices = (h.postAxis a (h.record a).holder).notices := by
  have e : ((h.undoMotion a).record a).holder = (h.record a).holder := by
    rw [Hub.record_undoMotion]; split <;> rfl
  simp only [Hub.dropClaim, e]
  exact Hub.postTo_notices_congr _ _ (by simp)

/-! ### Bale records, and a grant reported -/

@[simp] theorem Hub.evalFeedHold_inputs (h : Hub) : (h.evalFeedHold).inputs = h.inputs := by
  unfold Hub.evalFeedHold; dsimp only; split <;> simp

@[simp] theorem Hub.evalFeedHold_sampler (h : Hub) : (h.evalFeedHold).sampler = h.sampler := by
  unfold Hub.evalFeedHold; dsimp only; split <;> simp

@[simp] theorem Hub.evalFeedHold_map (h : Hub) : (h.evalFeedHold).map = h.map := by
  unfold Hub.evalFeedHold; dsimp only; split <;> simp

@[simp] theorem Hub.evalFeedHold_counter (h : Hub) : (h.evalFeedHold).counter = h.counter := by
  unfold Hub.evalFeedHold; dsimp only; split <;> simp

@[simp] theorem Hub.evalFeedHold_params (h : Hub) : (h.evalFeedHold).params = h.params := by
  unfold Hub.evalFeedHold; dsimp only; split <;> simp

@[simp] theorem Hub.evalFeedHold_clock (h : Hub) : (h.evalFeedHold).clock = h.clock := by
  unfold Hub.evalFeedHold; dsimp only; split <;> simp

@[simp] theorem Hub.evalFeedHold_control (h : Hub) : (h.evalFeedHold).control = h.control := by
  unfold Hub.evalFeedHold; dsimp only; split <;> simp

@[simp] theorem Hub.evalFeedHold_ports (h : Hub) : (h.evalFeedHold).ports = h.ports := by
  unfold Hub.evalFeedHold; dsimp only; split <;> simp

@[simp] theorem Hub.evalFeedHold_handler (h : Hub) : (h.evalFeedHold).handler = h.handler := by
  unfold Hub.evalFeedHold; dsimp only; split <;> simp

@[simp] theorem Hub.evalFeedHold_heldOrder (h : Hub) : (h.evalFeedHold).heldOrder = h.heldOrder := by
  unfold Hub.evalFeedHold; dsimp only; split <;> simp

@[simp] theorem Hub.evalFeedHold_lastEntry (h : Hub) : (h.evalFeedHold).lastEntry = h.lastEntry := by
  unfold Hub.evalFeedHold; dsimp only; split <;> simp

@[simp] theorem Hub.evalFeedHold_claims (h : Hub) : (h.evalFeedHold).claims = h.claims := by
  unfold Hub.evalFeedHold; dsimp only; split <;> simp

@[simp] theorem Hub.evalFeedHold_arbiter (h : Hub) : (h.evalFeedHold).arbiter = h.arbiter := by
  unfold Hub.evalFeedHold; dsimp only; split <;> simp

@[simp] theorem Hub.advance_inputs (h : Hub) (p : Place) (b : Bale) (g : Stage) : (h.advance p b g).inputs = h.inputs := by
  simp [Hub.advance, Hub.postAll]

@[simp] theorem Hub.advance_sampler (h : Hub) (p : Place) (b : Bale) (g : Stage) : (h.advance p b g).sampler = h.sampler := by
  simp [Hub.advance, Hub.postAll]

@[simp] theorem Hub.advance_map (h : Hub) (p : Place) (b : Bale) (g : Stage) : (h.advance p b g).map = h.map := by
  simp [Hub.advance, Hub.postAll]

@[simp] theorem Hub.advance_counter (h : Hub) (p : Place) (b : Bale) (g : Stage) : (h.advance p b g).counter = h.counter := by
  simp [Hub.advance, Hub.postAll]

@[simp] theorem Hub.advance_params (h : Hub) (p : Place) (b : Bale) (g : Stage) : (h.advance p b g).params = h.params := by
  simp [Hub.advance, Hub.postAll]

@[simp] theorem Hub.advance_clock (h : Hub) (p : Place) (b : Bale) (g : Stage) : (h.advance p b g).clock = h.clock := by
  simp [Hub.advance, Hub.postAll]

@[simp] theorem Hub.advance_control (h : Hub) (p : Place) (b : Bale) (g : Stage) : (h.advance p b g).control = h.control := by
  simp [Hub.advance, Hub.postAll]

@[simp] theorem Hub.advance_ports (h : Hub) (p : Place) (b : Bale) (g : Stage) : (h.advance p b g).ports = h.ports := by
  simp [Hub.advance, Hub.postAll]

@[simp] theorem Hub.advance_handler (h : Hub) (p : Place) (b : Bale) (g : Stage) : (h.advance p b g).handler = h.handler := by
  simp [Hub.advance, Hub.postAll]

@[simp] theorem Hub.advance_heldOrder (h : Hub) (p : Place) (b : Bale) (g : Stage) : (h.advance p b g).heldOrder = h.heldOrder := by
  simp [Hub.advance, Hub.postAll]

@[simp] theorem Hub.advance_lastEntry (h : Hub) (p : Place) (b : Bale) (g : Stage) : (h.advance p b g).lastEntry = h.lastEntry := by
  simp [Hub.advance, Hub.postAll]

@[simp] theorem Hub.advance_claims (h : Hub) (p : Place) (b : Bale) (g : Stage) : (h.advance p b g).claims = h.claims := by
  simp [Hub.advance, Hub.postAll]

@[simp] theorem Hub.advance_arbiter (h : Hub) (p : Place) (b : Bale) (g : Stage) : (h.advance p b g).arbiter = h.arbiter := by
  simp [Hub.advance, Hub.postAll]

@[simp] theorem Hub.advance_tracker (h : Hub) (p : Place) (b : Bale) (g : Stage) :
    (h.advance p b g).tracker = h.tracker.put p (some { b with stage := g }) := by
  simp [Hub.advance, Hub.postAll]

/-- FEED HOLD evaluated agrees with its condition (R117). -/
theorem Hub.evalFeedHold_tracker (h : Hub) :
    h.evalFeedHold.tracker = { h.tracker with feedHold := h.feedHoldCondition } := by
  unfold Hub.evalFeedHold; dsimp only; split <;> simp

@[simp] theorem Hub.reportGrant_inputs (h : Hub) (a : Axis) (d : Direction) : (h.reportGrant a d).inputs = h.inputs := by
  unfold Hub.reportGrant; repeat' split
  all_goals simp

@[simp] theorem Hub.reportGrant_sampler (h : Hub) (a : Axis) (d : Direction) : (h.reportGrant a d).sampler = h.sampler := by
  unfold Hub.reportGrant; repeat' split
  all_goals simp

@[simp] theorem Hub.reportGrant_map (h : Hub) (a : Axis) (d : Direction) : (h.reportGrant a d).map = h.map := by
  unfold Hub.reportGrant; repeat' split
  all_goals simp

@[simp] theorem Hub.reportGrant_counter (h : Hub) (a : Axis) (d : Direction) : (h.reportGrant a d).counter = h.counter := by
  unfold Hub.reportGrant; repeat' split
  all_goals simp

@[simp] theorem Hub.reportGrant_params (h : Hub) (a : Axis) (d : Direction) : (h.reportGrant a d).params = h.params := by
  unfold Hub.reportGrant; repeat' split
  all_goals simp

@[simp] theorem Hub.reportGrant_clock (h : Hub) (a : Axis) (d : Direction) : (h.reportGrant a d).clock = h.clock := by
  unfold Hub.reportGrant; repeat' split
  all_goals simp

@[simp] theorem Hub.reportGrant_control (h : Hub) (a : Axis) (d : Direction) : (h.reportGrant a d).control = h.control := by
  unfold Hub.reportGrant; repeat' split
  all_goals simp

@[simp] theorem Hub.reportGrant_ports (h : Hub) (a : Axis) (d : Direction) : (h.reportGrant a d).ports = h.ports := by
  unfold Hub.reportGrant; repeat' split
  all_goals simp

@[simp] theorem Hub.reportGrant_handler (h : Hub) (a : Axis) (d : Direction) : (h.reportGrant a d).handler = h.handler := by
  unfold Hub.reportGrant; repeat' split
  all_goals simp

@[simp] theorem Hub.reportGrant_heldOrder (h : Hub) (a : Axis) (d : Direction) : (h.reportGrant a d).heldOrder = h.heldOrder := by
  unfold Hub.reportGrant; repeat' split
  all_goals simp

@[simp] theorem Hub.reportGrant_lastEntry (h : Hub) (a : Axis) (d : Direction) : (h.reportGrant a d).lastEntry = h.lastEntry := by
  unfold Hub.reportGrant; repeat' split
  all_goals simp

@[simp] theorem Hub.reportGrant_claims (h : Hub) (a : Axis) (d : Direction) : (h.reportGrant a d).claims = h.claims := by
  unfold Hub.reportGrant; repeat' split
  all_goals simp

@[simp] theorem Hub.reportGrant_arbiter (h : Hub) (a : Axis) (d : Direction) : (h.reportGrant a d).arbiter = h.arbiter := by
  unfold Hub.reportGrant; repeat' split
  all_goals simp

/-! ### Grants and the service -/

@[simp] theorem Hub.grant_inputs (h : Hub) (a : Axis) : (h.grant a).inputs = h.inputs := by
  simp [Hub.grant]

@[simp] theorem Hub.grant_sampler (h : Hub) (a : Axis) : (h.grant a).sampler = h.sampler := by
  simp [Hub.grant]

@[simp] theorem Hub.grant_map (h : Hub) (a : Axis) : (h.grant a).map = h.map := by
  simp [Hub.grant]

@[simp] theorem Hub.grant_counter (h : Hub) (a : Axis) : (h.grant a).counter = h.counter := by
  simp [Hub.grant]

@[simp] theorem Hub.grant_params (h : Hub) (a : Axis) : (h.grant a).params = h.params := by
  simp [Hub.grant]

@[simp] theorem Hub.grant_clock (h : Hub) (a : Axis) : (h.grant a).clock = h.clock := by
  simp [Hub.grant]

@[simp] theorem Hub.grant_control (h : Hub) (a : Axis) : (h.grant a).control = h.control := by
  simp [Hub.grant]

@[simp] theorem Hub.grant_ports (h : Hub) (a : Axis) : (h.grant a).ports = h.ports := by
  simp [Hub.grant]

@[simp] theorem Hub.grant_handler (h : Hub) (a : Axis) : (h.grant a).handler = h.handler := by
  simp [Hub.grant]

@[simp] theorem Hub.grant_heldOrder (h : Hub) (a : Axis) : (h.grant a).heldOrder = h.heldOrder := by
  simp [Hub.grant]

@[simp] theorem Hub.grant_lastEntry (h : Hub) (a : Axis) : (h.grant a).lastEntry = h.lastEntry := by
  simp [Hub.grant]

@[simp] theorem Hub.grantFromQueue_inputs (h : Hub) (a : Axis) : (h.grantFromQueue a).inputs = h.inputs := by
  simp [Hub.grantFromQueue, Hub.postAxis]

@[simp] theorem Hub.grantFromQueue_sampler (h : Hub) (a : Axis) : (h.grantFromQueue a).sampler = h.sampler := by
  simp [Hub.grantFromQueue, Hub.postAxis]

@[simp] theorem Hub.grantFromQueue_map (h : Hub) (a : Axis) : (h.grantFromQueue a).map = h.map := by
  simp [Hub.grantFromQueue, Hub.postAxis]

@[simp] theorem Hub.grantFromQueue_counter (h : Hub) (a : Axis) : (h.grantFromQueue a).counter = h.counter := by
  simp [Hub.grantFromQueue, Hub.postAxis]

@[simp] theorem Hub.grantFromQueue_params (h : Hub) (a : Axis) : (h.grantFromQueue a).params = h.params := by
  simp [Hub.grantFromQueue, Hub.postAxis]

@[simp] theorem Hub.grantFromQueue_clock (h : Hub) (a : Axis) : (h.grantFromQueue a).clock = h.clock := by
  simp [Hub.grantFromQueue, Hub.postAxis]

@[simp] theorem Hub.grantFromQueue_control (h : Hub) (a : Axis) : (h.grantFromQueue a).control = h.control := by
  simp [Hub.grantFromQueue, Hub.postAxis]

@[simp] theorem Hub.grantFromQueue_ports (h : Hub) (a : Axis) : (h.grantFromQueue a).ports = h.ports := by
  simp [Hub.grantFromQueue, Hub.postAxis]

@[simp] theorem Hub.grantFromQueue_handler (h : Hub) (a : Axis) : (h.grantFromQueue a).handler = h.handler := by
  simp [Hub.grantFromQueue, Hub.postAxis]

@[simp] theorem Hub.grantFromQueue_heldOrder (h : Hub) (a : Axis) : (h.grantFromQueue a).heldOrder = h.heldOrder := by
  simp [Hub.grantFromQueue, Hub.postAxis]

@[simp] theorem Hub.grantFromQueue_lastEntry (h : Hub) (a : Axis) : (h.grantFromQueue a).lastEntry = h.lastEntry := by
  simp [Hub.grantFromQueue, Hub.postAxis]

/-- The records after a grant (R72). -/
theorem Hub.record_grant (h : Hub) (a b : Axis) :
    (h.grant a).record b =
      if b = a then { h.record a with state := .moving, flow := h.demand a, lease := (h.record a).holdTime }
      else h.record b := by
  have e : (h.grant a).record b = (((h.setValves a (.towards (h.record a).direction)).setRecord a
      { h.record a with state := .moving, flow := h.demand a, lease := (h.record a).holdTime }).record b) := by
    unfold Hub.grant Hub.record; simp only [Hub.reportGrant_claims]; rfl
  rw [e, Hub.record_setRecord]; rfl

/-- The valves after a grant (R72). -/
theorem Hub.grant_valves (h : Hub) (a : Axis) :
    (h.grant a).claims.valves = h.claims.valves.set a (.towards (h.record a).direction) := by
  simp [Hub.grant]

/-- The flow pool after a grant (R82). -/
theorem Hub.grant_arbiter (h : Hub) (a : Axis) :
    (h.grant a).arbiter =
      { h.arbiter with inUse := h.arbiter.inUse + h.demand a, grantOrder := h.arbiter.grantOrder ++ [a] } := by
  simp [Hub.grant]

/-- A grant of another motion than TAILGATE or TILT in EXTEND is not reported to the tracker (R72). -/
theorem Hub.reportGrant_of_other (h : Hub) (a : Axis) (d : Direction) (h1 : ¬ (a = .tailgate ∧ d = .extend))
    (h2 : ¬ (a = .tilt ∧ d = .extend)) : h.reportGrant a d = h := by
  unfold Hub.reportGrant; split <;> simp_all

theorem Hub.record_grantFromQueue (h : Hub) (a b : Axis) :
    (h.grantFromQueue a).record b =
      if b = a then { h.record a with state := .moving, flow := h.demand a, lease := (h.record a).holdTime }
      else h.record b := by
  simp [Hub.grantFromQueue, Hub.postAxis, Hub.record_grant, Hub.demand]

theorem Hub.grantFromQueue_valves (h : Hub) (a : Axis) :
    (h.grantFromQueue a).claims.valves = h.claims.valves.set a (.towards (h.record a).direction) := by
  simp [Hub.grantFromQueue, Hub.postAxis, Hub.grant_valves]

theorem Hub.grantFromQueue_arbiter (h : Hub) (a : Axis) :
    (h.grantFromQueue a).arbiter =
      { inUse := h.arbiter.inUse + h.demand a, grantOrder := h.arbiter.grantOrder ++ [a],
        queue := h.arbiter.queue.filter (fun e => e.axis ≠ a) } := by
  rw [Hub.grantFromQueue, Hub.postAxis, Hub.postTo_arbiter, Hub.grant_arbiter]; rfl

/-- THE SERVICE, once: what holds before it, and is kept by the removal of a head that fails its re-check and by the grant of a
head that passes and fits, holds after it (R91). -/
theorem Hub.serve_induction (P : Hub → Prop)
    (drop : ∀ (h : Hub) (e : WaitEntry) (rest : List WaitEntry) (c : EndCause), P h → h.arbiter.queue = e :: rest →
      h.recheck e.axis = some c → P ((h.endMotion e.axis c).dequeue e.axis))
    (grant : ∀ (h : Hub) (e : WaitEntry) (rest : List WaitEntry), P h → h.arbiter.queue = e :: rest →
      h.recheck e.axis = none → h.fits e.axis = true → P (h.grantFromQueue e.axis)) :
    ∀ (n : Nat) (h : Hub), P h → P (h.serve n) := by
  intro n
  induction n with
  | zero => intro h hp; exact hp
  | succ n ih =>
    intro h hp
    unfold Hub.serve
    split
    · exact hp
    · rename_i e rest hq
      split
      · rename_i c hc; exact ih _ (drop h e rest c hp hq hc)
      · rename_i hc
        split
        · rename_i hf; exact ih _ (grant h e rest hp hq hc hf)
        · exact hp

/-- The same for one whole service. -/
theorem Hub.service_induction (P : Hub → Prop)
    (drop : ∀ (h : Hub) (e : WaitEntry) (rest : List WaitEntry) (c : EndCause), P h → h.arbiter.queue = e :: rest →
      h.recheck e.axis = some c → P ((h.endMotion e.axis c).dequeue e.axis))
    (grant : ∀ (h : Hub) (e : WaitEntry) (rest : List WaitEntry), P h → h.arbiter.queue = e :: rest →
      h.recheck e.axis = none → h.fits e.axis = true → P (h.grantFromQueue e.axis)) (h : Hub) (hp : P h) : P h.service :=
  Hub.serve_induction P drop grant _ h hp

@[simp] theorem Hub.service_inputs (h : Hub) : h.service.inputs = h.inputs :=
  Hub.service_induction (fun k => k.inputs = h.inputs) (fun k e _ c hk _ _ => by simpa using hk) (fun k e _ hk _ _ _ => by simpa using hk)
    h rfl

@[simp] theorem Hub.service_sampler (h : Hub) : h.service.sampler = h.sampler :=
  Hub.service_induction (fun k => k.sampler = h.sampler) (fun k e _ c hk _ _ => by simpa using hk) (fun k e _ hk _ _ _ => by simpa using hk)
    h rfl

@[simp] theorem Hub.service_map (h : Hub) : h.service.map = h.map :=
  Hub.service_induction (fun k => k.map = h.map) (fun k e _ c hk _ _ => by simpa using hk) (fun k e _ hk _ _ _ => by simpa using hk)
    h rfl

@[simp] theorem Hub.service_counter (h : Hub) : h.service.counter = h.counter :=
  Hub.service_induction (fun k => k.counter = h.counter) (fun k e _ c hk _ _ => by simpa using hk) (fun k e _ hk _ _ _ => by simpa using hk)
    h rfl

@[simp] theorem Hub.service_params (h : Hub) : h.service.params = h.params :=
  Hub.service_induction (fun k => k.params = h.params) (fun k e _ c hk _ _ => by simpa using hk) (fun k e _ hk _ _ _ => by simpa using hk)
    h rfl

@[simp] theorem Hub.service_clock (h : Hub) : h.service.clock = h.clock :=
  Hub.service_induction (fun k => k.clock = h.clock) (fun k e _ c hk _ _ => by simpa using hk) (fun k e _ hk _ _ _ => by simpa using hk)
    h rfl

@[simp] theorem Hub.service_control (h : Hub) : h.service.control = h.control :=
  Hub.service_induction (fun k => k.control = h.control) (fun k e _ c hk _ _ => by simpa using hk) (fun k e _ hk _ _ _ => by simpa using hk)
    h rfl

@[simp] theorem Hub.service_ports (h : Hub) : h.service.ports = h.ports :=
  Hub.service_induction (fun k => k.ports = h.ports) (fun k e _ c hk _ _ => by simpa using hk) (fun k e _ hk _ _ _ => by simpa using hk)
    h rfl

@[simp] theorem Hub.service_handler (h : Hub) : h.service.handler = h.handler :=
  Hub.service_induction (fun k => k.handler = h.handler) (fun k e _ c hk _ _ => by simpa using hk) (fun k e _ hk _ _ _ => by simpa using hk)
    h rfl

@[simp] theorem Hub.service_heldOrder (h : Hub) : h.service.heldOrder = h.heldOrder :=
  Hub.service_induction (fun k => k.heldOrder = h.heldOrder) (fun k e _ c hk _ _ => by simpa using hk) (fun k e _ hk _ _ _ => by simpa using hk)
    h rfl

@[simp] theorem Hub.service_lastEntry (h : Hub) : h.service.lastEntry = h.lastEntry :=
  Hub.service_induction (fun k => k.lastEntry = h.lastEntry) (fun k e _ c hk _ _ => by simpa using hk) (fun k e _ hk _ _ _ => by simpa using hk)
    h rfl

/-- A service with an empty queue ends at once (R90). -/
theorem Hub.service_nil (h : Hub) (hq : h.arbiter.queue = []) : h.service = h := by
  simp [Hub.service, hq, Hub.serve]

/-- A service touches only axes that have an entry: another axis keeps its record and its valves (R91). -/
theorem Hub.service_of_no_entry (h : Hub) (a : Axis) (hq : ∀ e, e ∈ h.arbiter.queue → e.axis ≠ a) :
    (h.service.record a = h.record a ∧ h.service.claims.valves.get a = h.claims.valves.get a) ∧
      ∀ e, e ∈ h.service.arbiter.queue → e.axis ≠ a := by
  apply Hub.service_induction (fun k => (k.record a = h.record a ∧ k.claims.valves.get a = h.claims.valves.get a) ∧
    ∀ e, e ∈ k.arbiter.queue → e.axis ≠ a)
  · intro k e rest c ⟨⟨h1, h2⟩, h3⟩ hk _
    have ha : a ≠ e.axis := fun h => h3 e (by simp [hk]) h.symm
    refine ⟨⟨?_, ?_⟩, ?_⟩
    · simp [Hub.record_endMotion, ha, h1]
    · rw [Hub.dequeue_claims, Hub.endMotion_valves, Hub.undoMotion_valves]
      split <;> simp [PerAxis.get_set, ha, h2]
    · intro f hf
      have hsub : f ∈ k.arbiter.queue := by
        have hf' : f ∈ ((k.undoMotion e.axis).arbiter.queue).filter (fun x => x.axis ≠ e.axis) := by
          simpa [Hub.dequeue] using hf
        have hf'' := (List.mem_filter.mp hf').1
        rw [Hub.undoMotion_arbiter] at hf''
        split at hf'' <;> first | exact hf'' | exact (List.mem_filter.mp hf'').1
      exact h3 f hsub
  · intro k e rest ⟨⟨h1, h2⟩, h3⟩ hk _ _
    have ha : a ≠ e.axis := fun h => h3 e (by simp [hk]) h.symm
    refine ⟨⟨?_, ?_⟩, ?_⟩
    · simp [Hub.record_grantFromQueue, ha, h1]
    · simp [Hub.grantFromQueue_valves, PerAxis.get_set, ha, h2]
    · intro f hf
      rw [Hub.grantFromQueue_arbiter] at hf
      exact h3 f (List.mem_filter.mp hf).1
  · exact ⟨⟨rfl, rfl⟩, hq⟩

end Sys2Proof.Machine
end

