-- ==== Sys2Proof/Laws/Blocks.lean ====
section
/-! SUPPORT. What the operations on places, dispensers, zone entries and bale records can do, and the pauses, drops and
conversions of motions: the record each writes and the fields it leaves alone. -/

namespace Sys2Proof.Machine

/-! ### Places, dispensers, zone entries -/

theorem Tracker.at_put (t : Tracker) (p q : Place) (b : Option Bale) : (t.put p b).at q = if q = p then b else t.at q := by
  cases p <;> cases q <;> rfl

@[simp] theorem Tracker.at_put_self (t : Tracker) (p : Place) (b : Option Bale) : (t.put p b).at p = b := by cases p <;> rfl

@[simp] theorem Tracker.put_log (t : Tracker) (p : Place) (b : Option Bale) : (t.put p b).log = t.log := by cases p <;> rfl

@[simp] theorem Tracker.put_nextNumber (t : Tracker) (p : Place) (b : Option Bale) :
    (t.put p b).nextNumber = t.nextNumber := by cases p <;> rfl

@[simp] theorem Tracker.put_transit (t : Tracker) (p : Place) (b : Option Bale) : (t.put p b).transit = t.transit := by
  cases p <;> rfl

@[simp] theorem Tracker.put_stopwatch (t : Tracker) (p : Place) (b : Option Bale) : (t.put p b).stopwatch = t.stopwatch := by
  cases p <;> rfl

@[simp] theorem Tracker.put_feedHold (t : Tracker) (p : Place) (b : Option Bale) : (t.put p b).feedHold = t.feedHold := by
  cases p <;> rfl

/-- A bale number is held exactly by a record at a place or by one in the log (R101). -/
theorem Tracker.mem_heldNumbers (t : Tracker) (n : Nat) :
    n ∈ t.heldNumbers ↔ (∃ p b, t.at p = some b ∧ b.number = n) ∨ ∃ b ∈ t.log, b.number = n := by
  have hp : (∃ p b, t.at p = some b ∧ b.number = n) ↔
      (∃ b, t.table = some b ∧ b.number = n) ∨ (∃ b, t.cradle = some b ∧ b.number = n) ∨
        ∃ b, t.chamber = some b ∧ b.number = n := by
    constructor
    · rintro ⟨p, b, hb, hn⟩
      cases p
      · exact .inr (.inr ⟨b, hb, hn⟩)
      · exact .inr (.inl ⟨b, hb, hn⟩)
      · exact .inl ⟨b, hb, hn⟩
    · rintro (⟨b, hb, hn⟩ | ⟨b, hb, hn⟩ | ⟨b, hb, hn⟩)
      · exact ⟨.table, b, hb, hn⟩
      · exact ⟨.cradle, b, hb, hn⟩
      · exact ⟨.chamber, b, hb, hn⟩
  rw [hp]
  cases h1 : t.table <;> cases h2 : t.cradle <;> cases h3 : t.chamber <;>
    simp [Tracker.heldNumbers, Tracker.queue, h1, h2, h3, eq_comm, or_assoc]

theorem LayerCounter.dispenser_setDispenser (c : LayerCounter) (d e : Dispenser) (x : DispenserState) :
    (c.setDispenser d x).dispenser e = if e = d then x else c.dispenser e := by cases d <;> cases e <;> rfl

/-- What holds of the eight numbered zones and of U holds of every zone (R9). -/
theorem Zone.forall_of {P : Zone → Prop} (h0 : P (.number 0)) (h1 : P (.number 1)) (h2 : P (.number 2)) (h3 : P (.number 3))
    (h4 : P (.number 4)) (h5 : P (.number 5)) (h6 : P (.number 6)) (h7 : P (.number 7)) (hu : P .unknown) : ∀ z, P z := by
  intro z
  match z with
  | .number 0 => exact h0
  | .number 1 => exact h1
  | .number 2 => exact h2
  | .number 3 => exact h3
  | .number 4 => exact h4
  | .number 5 => exact h5
  | .number 6 => exact h6
  | .number 7 => exact h7
  | .unknown => exact hu

theorem ZoneEntries.get_set (e : ZoneEntries) (z y : Zone) (x : ZoneEntry) :
    (e.set z x).get y = if y = z then x else e.get y := by
  revert y
  apply Zone.forall_of <;> revert z <;> apply Zone.forall_of <;> rfl

/-! ### Bale records -/

/-- The tracker after a record is created: the record at its place, and the next number one on (R101). -/
@[simp] theorem Hub.createBale_tracker (h : Hub) (p : Place) (g : Stage) (recovered : Bool) :
    (h.createBale p g recovered).tracker =
      { h.tracker.put p (some (h.newBale g recovered)) with nextNumber := nextBaleNumber h.tracker.assignedNumber } := by
  simp [Hub.createBale, Hub.postAll, Hub.newBale]

/-- The tracker after a record is logged: its place empty, and the record at the end of the log (R121). -/
theorem Hub.logBale_tracker (h : Hub) (p : Place) (b : Bale) (planned : Bool) :
    ∃ x, x.number = b.number ∧ x.stage = (if planned then .dropped else b.stage) ∧ x.net = b.net ∧ x.film = b.film ∧
      (h.logBale p b planned).tracker = { h.tracker.put p none with
        log := (if Config.logCapacity ≤ h.tracker.log.length then h.tracker.log.drop 1 else h.tracker.log) ++ [x] } := by
  refine ⟨{ b with
    stage := if planned then .dropped else b.stage,
    flags := { b.flags with
      unplanned := b.flags.unplanned || !planned,
      logDisplaced := b.flags.logDisplaced || decide (Config.logCapacity ≤ h.tracker.log.length) },
    dropTime := some h.clock.seconds }, rfl, rfl, rfl, rfl, ?_⟩
  unfold Hub.logBale
  dsimp only
  rw [apply_ite Hub.tracker]
  simp [Hub.postAll]

@[simp] theorem Hub.createBale_inputs (h : Hub) (p : Place) (g : Stage) (recovered : Bool) : (h.createBale p g recovered).inputs = h.inputs := by
  simp [Hub.createBale, Hub.postAll]

@[simp] theorem Hub.createBale_sampler (h : Hub) (p : Place) (g : Stage) (recovered : Bool) : (h.createBale p g recovered).sampler = h.sampler := by
  simp [Hub.createBale, Hub.postAll]

@[simp] theorem Hub.createBale_map (h : Hub) (p : Place) (g : Stage) (recovered : Bool) : (h.createBale p g recovered).map = h.map := by
  simp [Hub.createBale, Hub.postAll]

@[simp] theorem Hub.createBale_claims (h : Hub) (p : Place) (g : Stage) (recovered : Bool) : (h.createBale p g recovered).claims = h.claims := by
  simp [Hub.createBale, Hub.postAll]

@[simp] theorem Hub.createBale_arbiter (h : Hub) (p : Place) (g : Stage) (recovered : Bool) : (h.createBale p g recovered).arbiter = h.arbiter := by
  simp [Hub.createBale, Hub.postAll]

@[simp] theorem Hub.createBale_counter (h : Hub) (p : Place) (g : Stage) (recovered : Bool) : (h.createBale p g recovered).counter = h.counter := by
  simp [Hub.createBale, Hub.postAll]

@[simp] theorem Hub.createBale_params (h : Hub) (p : Place) (g : Stage) (recovered : Bool) : (h.createBale p g recovered).params = h.params := by
  simp [Hub.createBale, Hub.postAll]

@[simp] theorem Hub.createBale_clock (h : Hub) (p : Place) (g : Stage) (recovered : Bool) : (h.createBale p g recovered).clock = h.clock := by
  simp [Hub.createBale, Hub.postAll]

@[simp] theorem Hub.createBale_control (h : Hub) (p : Place) (g : Stage) (recovered : Bool) : (h.createBale p g recovered).control = h.control := by
  simp [Hub.createBale, Hub.postAll]

@[simp] theorem Hub.createBale_ports (h : Hub) (p : Place) (g : Stage) (recovered : Bool) : (h.createBale p g recovered).ports = h.ports := by
  simp [Hub.createBale, Hub.postAll]

@[simp] theorem Hub.createBale_handler (h : Hub) (p : Place) (g : Stage) (recovered : Bool) : (h.createBale p g recovered).handler = h.handler := by
  simp [Hub.createBale, Hub.postAll]

@[simp] theorem Hub.createBale_heldOrder (h : Hub) (p : Place) (g : Stage) (recovered : Bool) : (h.createBale p g recovered).heldOrder = h.heldOrder := by
  simp [Hub.createBale, Hub.postAll]

@[simp] theorem Hub.createBale_lastEntry (h : Hub) (p : Place) (g : Stage) (recovered : Bool) : (h.createBale p g recovered).lastEntry = h.lastEntry := by
  simp [Hub.createBale, Hub.postAll]

@[simp] theorem Hub.logBale_inputs (h : Hub) (p : Place) (b : Bale) (planned : Bool) : (h.logBale p b planned).inputs = h.inputs := by
  unfold Hub.logBale; dsimp only; rw [apply_ite Hub.inputs]; simp [Hub.postAll]

@[simp] theorem Hub.logBale_sampler (h : Hub) (p : Place) (b : Bale) (planned : Bool) : (h.logBale p b planned).sampler = h.sampler := by
  unfold Hub.logBale; dsimp only; rw [apply_ite Hub.sampler]; simp [Hub.postAll]

@[simp] theorem Hub.logBale_map (h : Hub) (p : Place) (b : Bale) (planned : Bool) : (h.logBale p b planned).map = h.map := by
  unfold Hub.logBale; dsimp only; rw [apply_ite Hub.map]; simp [Hub.postAll]

@[simp] theorem Hub.logBale_claims (h : Hub) (p : Place) (b : Bale) (planned : Bool) : (h.logBale p b planned).claims = h.claims := by
  unfold Hub.logBale; dsimp only; rw [apply_ite Hub.claims]; simp [Hub.postAll]

@[simp] theorem Hub.logBale_arbiter (h : Hub) (p : Place) (b : Bale) (planned : Bool) : (h.logBale p b planned).arbiter = h.arbiter := by
  unfold Hub.logBale; dsimp only; rw [apply_ite Hub.arbiter]; simp [Hub.postAll]

@[simp] theorem Hub.logBale_counter (h : Hub) (p : Place) (b : Bale) (planned : Bool) : (h.logBale p b planned).counter = h.counter := by
  unfold Hub.logBale; dsimp only; rw [apply_ite Hub.counter]; simp [Hub.postAll]

@[simp] theorem Hub.logBale_params (h : Hub) (p : Place) (b : Bale) (planned : Bool) : (h.logBale p b planned).params = h.params := by
  unfold Hub.logBale; dsimp only; rw [apply_ite Hub.params]; simp [Hub.postAll]

@[simp] theorem Hub.logBale_clock (h : Hub) (p : Place) (b : Bale) (planned : Bool) : (h.logBale p b planned).clock = h.clock := by
  unfold Hub.logBale; dsimp only; rw [apply_ite Hub.clock]; simp [Hub.postAll]

@[simp] theorem Hub.logBale_control (h : Hub) (p : Place) (b : Bale) (planned : Bool) : (h.logBale p b planned).control = h.control := by
  unfold Hub.logBale; dsimp only; rw [apply_ite Hub.control]; simp [Hub.postAll]

@[simp] theorem Hub.logBale_ports (h : Hub) (p : Place) (b : Bale) (planned : Bool) : (h.logBale p b planned).ports = h.ports := by
  unfold Hub.logBale; dsimp only; rw [apply_ite Hub.ports]; simp [Hub.postAll]

@[simp] theorem Hub.logBale_handler (h : Hub) (p : Place) (b : Bale) (planned : Bool) : (h.logBale p b planned).handler = h.handler := by
  unfold Hub.logBale; dsimp only; rw [apply_ite Hub.handler]; simp [Hub.postAll]

@[simp] theorem Hub.logBale_heldOrder (h : Hub) (p : Place) (b : Bale) (planned : Bool) : (h.logBale p b planned).heldOrder = h.heldOrder := by
  unfold Hub.logBale; dsimp only; rw [apply_ite Hub.heldOrder]; simp [Hub.postAll]

@[simp] theorem Hub.logBale_lastEntry (h : Hub) (p : Place) (b : Bale) (planned : Bool) : (h.logBale p b planned).lastEntry = h.lastEntry := by
  unfold Hub.logBale; dsimp only; rw [apply_ite Hub.lastEntry]; simp [Hub.postAll]

/-- A number follows within 1 to 65535 (R101). -/
theorem nextBaleNumber_range (n : Nat) : 1 ≤ nextBaleNumber n ∧ nextBaleNumber n ≤ 65535 := by
  unfold nextBaleNumber; split <;> omega

/-- The number found stays within 1 to 65535 (R101). -/
theorem freeBaleNumber_range (held : List Nat) (k n : Nat) (hn : 1 ≤ n ∧ n ≤ 65535) :
    1 ≤ freeBaleNumber held k n ∧ freeBaleNumber held k n ≤ 65535 := by
  induction k generalizing n with
  | zero => exact hn
  | succ k ih =>
    unfold freeBaleNumber
    split
    · exact ih _ (nextBaleNumber_range n)
    · exact hn

/-- The number found is reached by passing over held numbers alone (R101). -/
theorem freeBaleNumber_passesOver (held : List Nat) (fuel start : Nat) :
    Says.passesOver held start (freeBaleNumber held fuel start) := by
  induction fuel generalizing start with
  | zero => exact ⟨0, rfl, fun j hj => absurd hj (Nat.not_lt_zero j)⟩
  | succ fuel ih =>
    unfold freeBaleNumber
    split
    · rename_i hc
      obtain ⟨k, hk, hj⟩ := ih (nextBaleNumber start)
      refine ⟨k + 1, hk, fun j hlt => ?_⟩
      cases j with
      | zero => exact List.contains_iff_mem.mp hc
      | succ j => exact hj j (by omega)
    · exact ⟨0, rfl, fun j hj => absurd hj (Nat.not_lt_zero j)⟩

/-- The numbers on from one in 1 to 65535, counted around (R101). -/
theorem numberOn_eq (k start : Nat) (hn : 1 ≤ start ∧ start ≤ 65535) :
    Says.numberOn k start = (start - 1 + k) % 65535 + 1 := by
  induction k generalizing start with
  | zero => simp only [Says.numberOn]; omega
  | succ k ih =>
    unfold Says.numberOn
    rw [ih _ (by split <;> omega)]
    split <;> omega

/-- A number found that is held after all means that every number tried is held. -/
theorem freeBaleNumber_allHeld (held : List Nat) (fuel start : Nat) (hf : freeBaleNumber held fuel start ∈ held) :
    ∀ j, j ≤ fuel → Says.numberOn j start ∈ held := by
  induction fuel generalizing start with
  | zero =>
    intro j hj
    obtain rfl : j = 0 := Nat.le_zero.mp hj
    exact hf
  | succ fuel ih =>
    unfold freeBaleNumber at hf
    split at hf
    · rename_i hc
      intro j hj
      cases j with
      | zero => exact List.contains_iff_mem.mp hc
      | succ j => exact ih (nextBaleNumber start) hf j (by omega)
    · rename_i hc
      exact absurd (List.contains_iff_mem.mpr hf) hc

theorem length_le_of_nodup_subset (l held : List Nat) (hn : l.Nodup) (hs : ∀ x, x ∈ l → x ∈ held) : l.length ≤ held.length := by
  induction l generalizing held with
  | nil => exact Nat.zero_le _
  | cons a l ih =>
    obtain ⟨ha, hl⟩ := List.nodup_cons.mp hn
    have hm : a ∈ held := hs a (List.mem_cons_self ..)
    have := ih (held.erase a) hl (fun x hx =>
      (List.mem_erase_of_ne (fun e : x = a => ha (e ▸ hx))).mpr (hs x (List.mem_cons_of_mem _ hx)))
    rw [List.length_erase_of_mem hm] at this
    have := List.length_pos_of_mem hm
    simp only [List.length_cons]
    omega

/-- The queue and the log hold fewer numbers than there are, so the number assigned is one that no record holds (R101). -/
theorem Tracker.assignedNumber_free (t : Tracker) (hn : 1 ≤ t.nextNumber ∧ t.nextNumber ≤ 65535) (hl : t.logBounded) :
    t.assignedNumber ∉ t.heldNumbers := by
  intro hf
  have all := freeBaleNumber_allHeld _ _ _ hf
  have hq : t.heldNumbers.length ≤ 35 := by
    have : t.queue.length ≤ 3 := by
      unfold Tracker.queue
      cases t.table <;> cases t.cradle <;> cases t.chamber <;> simp
    have : t.log.length ≤ 32 := hl
    simp only [Tracker.heldNumbers, List.length_append, List.length_map]
    omega
  have := length_le_of_nodup_subset ((List.range (t.heldNumbers.length + 1)).map (fun j => Says.numberOn j t.nextNumber))
    t.heldNumbers
    (by
      refine List.Pairwise.map _ (R := fun i j => i < j ∧ j < t.heldNumbers.length + 1) ?_ ?_
      · rintro i j ⟨hij, hj⟩
        rw [numberOn_eq _ _ hn, numberOn_eq _ _ hn]
        omega
      · exact List.Pairwise.and_mem.mp List.pairwise_lt_range |>.imp (fun h => ⟨h.2.2, List.mem_range.mp h.2.1⟩))
    (by
      intro x hx
      obtain ⟨j, hj, rfl⟩ := List.mem_map.mp hx
      exact all j (by have := List.mem_range.mp hj; omega))
  simp only [List.length_map, List.length_range] at this
  omega

/-! ### The wait queue -/

theorem mem_joinQueue (q : List WaitEntry) (e x : WaitEntry) : x ∈ joinQueue q e ↔ x = e ∨ x ∈ q := by
  have split (p : WaitEntry → Bool) : x ∈ q.takeWhile p ++ e :: q.dropWhile p ↔ x = e ∨ x ∈ q := by
    have h : x ∈ q ↔ x ∈ q.takeWhile p ∨ x ∈ q.dropWhile p := by
      rw [← List.mem_append, List.takeWhile_append_dropWhile]
    simp only [List.mem_append, List.mem_cons, h]
    constructor
    · rintro (a | a | a) <;> simp [a]
    · rintro (a | a | a) <;> simp [a]
  unfold joinQueue
  split
  · exact split _
  · exact split _
  · simp [or_comm]

/-! ### Pausing and queuing -/

/-- The records after a pause (R88): PAUSED, the lease at CLAIM_LEASE, the flow returned, all else kept. -/
theorem Hub.record_pause (h : Hub) (a b : Axis) :
    (h.pause a).record b =
      if b = a then { h.record a with flow := 0, state := .paused, lease := h.claimLease } else h.record b := by
  by_cases hb : b = a
  · subst hb
    simp [Hub.pause, Hub.postAxis, Hub.record_returnFlow, Hub.claimLease]
  · simp [Hub.pause, Hub.postAxis, Hub.record_setRecord, Hub.record_returnFlow, hb]

/-- The valves after a pause: off for the axis paused (R88). -/
@[simp] theorem Hub.pause_valves (h : Hub) (a : Axis) : (h.pause a).claims.valves = h.claims.valves.set a .off := by
  simp [Hub.pause, Hub.postAxis, Hub.returnFlow_valves]

/-- The flow pool after a pause (R88). -/
@[simp] theorem Hub.pause_arbiter (h : Hub) (a : Axis) :
    (h.pause a).arbiter = { h.arbiter with
      inUse := h.arbiter.inUse - (h.record a).flow, grantOrder := h.arbiter.grantOrder.filter (· ≠ a) } := by
  simp [Hub.pause, Hub.postAxis, Hub.returnFlow]

@[simp] theorem Hub.pause_inputs (h : Hub) (a : Axis) : (h.pause a).inputs = h.inputs := by simp [Hub.pause, Hub.postAxis]

@[simp] theorem Hub.pause_sampler (h : Hub) (a : Axis) : (h.pause a).sampler = h.sampler := by simp [Hub.pause, Hub.postAxis]

@[simp] theorem Hub.pause_map (h : Hub) (a : Axis) : (h.pause a).map = h.map := by simp [Hub.pause, Hub.postAxis]

@[simp] theorem Hub.pause_counter (h : Hub) (a : Axis) : (h.pause a).counter = h.counter := by simp [Hub.pause, Hub.postAxis]

@[simp] theorem Hub.pause_params (h : Hub) (a : Axis) : (h.pause a).params = h.params := by simp [Hub.pause, Hub.postAxis]

@[simp] theorem Hub.pause_clock (h : Hub) (a : Axis) : (h.pause a).clock = h.clock := by simp [Hub.pause, Hub.postAxis]

@[simp] theorem Hub.pause_control (h : Hub) (a : Axis) : (h.pause a).control = h.control := by simp [Hub.pause, Hub.postAxis]

@[simp] theorem Hub.pause_ports (h : Hub) (a : Axis) : (h.pause a).ports = h.ports := by simp [Hub.pause, Hub.postAxis]

@[simp] theorem Hub.pause_handler (h : Hub) (a : Axis) : (h.pause a).handler = h.handler := by simp [Hub.pause, Hub.postAxis]

@[simp] theorem Hub.pause_heldOrder (h : Hub) (a : Axis) : (h.pause a).heldOrder = h.heldOrder := by simp [Hub.pause, Hub.postAxis]

@[simp] theorem Hub.pause_lastEntry (h : Hub) (a : Axis) : (h.pause a).lastEntry = h.lastEntry := by simp [Hub.pause, Hub.postAxis]

@[simp] theorem Hub.pause_tracker (h : Hub) (a : Axis) : (h.pause a).tracker = h.tracker := by simp [Hub.pause, Hub.postAxis]

/-- The records after a motion is queued (R66, R86). -/
theorem Hub.record_queueMotion (h : Hub) (a b : Axis) (c : MotionClass) :
    (h.queueMotion a c).record b =
      if b = a then { h.record a with state := .waiting, lease := h.claimLease } else h.record b := by
  simp [Hub.queueMotion, Hub.record_setRecord]

/-- The records after a conversion to park: the target of a RING RUN in flight alone (R69). -/
theorem Hub.record_convertToPark (h : Hub) (b : Axis) :
    h.convertToPark.record b =
      if b = .ring ∧ (h.record .ring).state.inFlight = true ∧ (h.record .ring).target = .run then
        { h.record .ring with target := .to h.params.ringPark }
      else h.record b := by
  simp only [Hub.convertToPark, Bool.and_eq_true, beq_iff_eq]
  split
  · rw [Hub.record_setRecord]; simp_all
  · simp_all

/-- A conversion to park changes the axis records alone (R69). -/
theorem Hub.convertToPark_frame (h : Hub) :
    { h.convertToPark with claims := h.claims } = h ∧ h.convertToPark.claims.valves = h.claims.valves := by
  simp only [Hub.convertToPark]
  split <;> exact ⟨rfl, rfl⟩

/-! ### Dropping the claims -/

/-- What every single drop keeps, the drop of all claims keeps (R58). -/
theorem Hub.dropAllClaims_induction (P : Hub → Prop)
    (drop : ∀ (h : Hub) (a : Axis), P h → (h.record a).state ≠ .idle → P (h.dropClaim a .mode)) (h : Hub) (hp : P h) :
    P h.dropAllClaims := by
  have fold : ∀ (l : List Axis) (k : Hub), P k →
      P (l.foldl (fun h a => if (h.record a).state = .idle then h else h.dropClaim a .mode) k) := by
    intro l
    induction l with
    | nil => intro k hk; exact hk
    | cons a l ih =>
      intro k hk
      apply ih
      dsimp only
      split
      · exact hk
      · rename_i hne; exact drop k a hk hne
  exact fold _ h hp

@[simp] theorem Hub.dropAllClaims_inputs (h : Hub) : h.dropAllClaims.inputs = h.inputs :=
  Hub.dropAllClaims_induction (fun k => k.inputs = h.inputs) (fun k a hk _ => by simpa using hk) h rfl

@[simp] theorem Hub.dropAllClaims_sampler (h : Hub) : h.dropAllClaims.sampler = h.sampler :=
  Hub.dropAllClaims_induction (fun k => k.sampler = h.sampler) (fun k a hk _ => by simpa using hk) h rfl

@[simp] theorem Hub.dropAllClaims_map (h : Hub) : h.dropAllClaims.map = h.map :=
  Hub.dropAllClaims_induction (fun k => k.map = h.map) (fun k a hk _ => by simpa using hk) h rfl

@[simp] theorem Hub.dropAllClaims_counter (h : Hub) : h.dropAllClaims.counter = h.counter :=
  Hub.dropAllClaims_induction (fun k => k.counter = h.counter) (fun k a hk _ => by simpa using hk) h rfl

@[simp] theorem Hub.dropAllClaims_params (h : Hub) : h.dropAllClaims.params = h.params :=
  Hub.dropAllClaims_induction (fun k => k.params = h.params) (fun k a hk _ => by simpa using hk) h rfl

@[simp] theorem Hub.dropAllClaims_clock (h : Hub) : h.dropAllClaims.clock = h.clock :=
  Hub.dropAllClaims_induction (fun k => k.clock = h.clock) (fun k a hk _ => by simpa using hk) h rfl

@[simp] theorem Hub.dropAllClaims_control (h : Hub) : h.dropAllClaims.control = h.control :=
  Hub.dropAllClaims_induction (fun k => k.control = h.control) (fun k a hk _ => by simpa using hk) h rfl

@[simp] theorem Hub.dropAllClaims_ports (h : Hub) : h.dropAllClaims.ports = h.ports :=
  Hub.dropAllClaims_induction (fun k => k.ports = h.ports) (fun k a hk _ => by simpa using hk) h rfl

@[simp] theorem Hub.dropAllClaims_handler (h : Hub) : h.dropAllClaims.handler = h.handler :=
  Hub.dropAllClaims_induction (fun k => k.handler = h.handler) (fun k a hk _ => by simpa using hk) h rfl

@[simp] theorem Hub.dropAllClaims_heldOrder (h : Hub) : h.dropAllClaims.heldOrder = h.heldOrder :=
  Hub.dropAllClaims_induction (fun k => k.heldOrder = h.heldOrder) (fun k a hk _ => by simpa using hk) h rfl

@[simp] theorem Hub.dropAllClaims_lastEntry (h : Hub) : h.dropAllClaims.lastEntry = h.lastEntry :=
  Hub.dropAllClaims_induction (fun k => k.lastEntry = h.lastEntry) (fun k a hk _ => by simpa using hk) h rfl

@[simp] theorem Hub.dropAllClaims_tracker (h : Hub) : h.dropAllClaims.tracker = h.tracker :=
  Hub.dropAllClaims_induction (fun k => k.tracker = h.tracker) (fun k a hk _ => by simpa using hk) h rfl

/-! ### The cradle-wait stopwatch -/

/-- The comparison with the limit touches the flag of the cradle's record and the notices, and nothing else (R116). -/
theorem Hub.lateCheck_frame (h : Hub) :
    { h.lateCheck with
      notices := h.notices, tracker := { h.lateCheck.tracker with cradle := h.tracker.cradle } } = h := by
  unfold Hub.lateCheck; repeat' split
  · have := Hub.postTo_frame .tableLate [.ch, .wr, .ct] h
    simp only [Hub.postAll, Hub.postTo, List.foldl, Hub.post]
  all_goals rfl

/-- 10 ms of the stopwatch touch the stopwatch, the cradle's record and the notices, and nothing else (R115, R116). -/
theorem Hub.stopwatchTick_frame (h : Hub) :
    { h.stopwatchTick with
      notices := h.notices,
      tracker := { h.stopwatchTick.tracker with cradle := h.tracker.cradle, stopwatch := h.tracker.stopwatch } } = h := by
  unfold Hub.stopwatchTick; repeat' split
  · rfl
  · unfold Hub.lateCheck; repeat' split
    all_goals simp only [Hub.postAll, Hub.postTo, List.foldl, Hub.post]
  · rfl

/-! ### Items -/

/-- An item command is the taking of its item: the handler's table and exec agree on every one of them (R171). -/
theorem exec_of_itemOf (i : Instr) (code : Byte) (f : Hub → Hub × Answer) (s : State) (hi : itemOf i = some (code, f)) :
    exec i s = s.item code f := by
  cases i <;> simp only [itemOf, Option.some.injEq, Prod.mk.injEq, reduceCtorEq] at hi <;>
    (obtain ⟨rfl, rfl⟩ := hi; rfl)

end Sys2Proof.Machine
end

