-- ==== Sys2Proof/Laws/Ends.lean ====
section
/-! SUPPORT. The end of a motion as one update, and the service one head at a time, in a part whose claim table, arbiter and
valves agree. -/

namespace Sys2Proof.Machine

/-- Undoing a motion, whatever the state of its axis, is one update: what the axis does not hold is not there to be undone. -/
theorem Hub.undoMotion_eq (h : Hub) (a : Axis) (hm : h.motionAgrees) (hv : h.valvesAgree) :
    h.undoMotion a = { h with
      claims := { records := h.claims.records.set a { h.record a with flow := 0 }, valves := h.claims.valves.set a .off },
      arbiter := { inUse := h.arbiter.inUse - (h.record a).flow,
                   grantOrder := h.arbiter.grantOrder.filter (fun b => b ≠ a),
                   queue := h.arbiter.queue.filter (fun e => e.axis ≠ a) } } := by
  obtain ⟨hr, hq, hf, _⟩ := hm
  have hqa := hq.2.1 a
  have notGranted : (h.record a).state ≠ .moving → h.arbiter.grantOrder.filter (fun b => b ≠ a) = h.arbiter.grantOrder :=
    fun hn => List.filter_eq_self.mpr fun b hb => by
      simpa using fun e : b = a => hn ((hf.2.1 a).mp (e ▸ hb))
  have notQueued : (h.record a).state ≠ .waiting → (h.record a).state ≠ .paused →
      h.arbiter.queue.filter (fun e => e.axis ≠ a) = h.arbiter.queue :=
    fun h1 h2 => List.filter_eq_self.mpr fun e he => by
      simpa using fun ha : e.axis = a => (hqa.mp ⟨e, he, ha⟩).elim h1 h2
  have valveOff : (h.record a).state ≠ .moving → h.claims.valves.set a .off = h.claims.valves := fun hn => by
    have := hv a
    rw [if_neg hn] at this
    rw [← this, PerAxis.set_get]
  have noFlow : (h.record a).state ≠ .moving → { h.record a with flow := 0 } = h.record a ∧ (h.record a).flow = 0 := fun hn => by
    have := (hr a).2.2
    rw [if_neg hn] at this
    exact ⟨by rw [← this], this⟩
  unfold Hub.undoMotion
  rcases hs : (h.record a).state <;> simp only
  case moving =>
    rw [notQueued (by simp [hs]) (by simp [hs])]; rfl
  case waiting | paused =>
    rw [notGranted (by simp [hs]), valveOff (by simp [hs]), (noFlow (by simp [hs])).1, (noFlow (by simp [hs])).2, Hub.record,
      PerAxis.set_get, Nat.sub_zero]
    rfl
  case idle | claimed =>
    rw [notGranted (by simp [hs]), notQueued (by simp [hs]) (by simp [hs]), valveOff (by simp [hs]),
      (noFlow (by simp [hs])).1, (noFlow (by simp [hs])).2, Hub.record, PerAxis.set_get, Nat.sub_zero]

/-- A motion ended with the claim kept is one update (R75). -/
theorem Hub.endMotion_eq (h : Hub) (a : Axis) (c : EndCause) (hm : h.motionAgrees) (hv : h.valvesAgree) :
    h.endMotion a c =
      Says.endedHub h a { h.record a with state := .claimed, lease := h.claimLease, lastEnd := c, flow := 0 } := by
  simp only [Hub.endMotion, h.undoMotion_eq a hm hv, Hub.postAxis, Hub.setRecord, Hub.record, PerAxis.get_set_self,
    PerAxis.set_set]
  rfl

/-- A claim dropped is one update (R45, R51, R58). -/
theorem Hub.dropClaim_eq (h : Hub) (a : Axis) (c : EndCause) (hm : h.motionAgrees) (hv : h.valvesAgree) :
    h.dropClaim a c = Says.endedHub h a { h.record a with
      state := .idle, holder := none, lastHolder := (h.record a).holder, lease := 0, lastEnd := c, flow := 0 } := by
  simp only [Hub.dropClaim, h.undoMotion_eq a hm hv, Hub.postAxis, Hub.setRecord, Hub.record, PerAxis.get_set_self,
    PerAxis.set_set]
  rfl

/-- The queue behind its head, when no axis has two entries. -/
theorem Hub.queue_behind (h : Hub) {e : WaitEntry} {rest : List WaitEntry} (hq : h.queueAgrees)
    (he : h.arbiter.queue = e :: rest) : h.arbiter.queue.filter (fun x => x.axis ≠ e.axis) = rest := by
  have hd := hq.1
  rw [he, List.map_cons, List.nodup_cons] at hd
  rw [he, List.filter_cons_of_neg (by simp)]
  exact List.filter_eq_self.mpr fun x hx => by
    simpa using fun ha : x.axis = e.axis => hd.1 (ha ▸ List.mem_map_of_mem hx)

/-- The service goes on after a head that is granted (R91 step 4). -/
theorem Hub.service_of_granted (h : Hub) {e : WaitEntry} {rest : List WaitEntry} (hq : h.queueAgrees)
    (he : h.arbiter.queue = e :: rest) (hc : h.recheck e.axis = none) (hf : h.fits e.axis = true) :
    h.service = (h.grantFromQueue e.axis).service := by
  have hr : (h.grantFromQueue e.axis).arbiter.queue = rest := by
    rw [Hub.grantFromQueue_arbiter]; exact h.queue_behind hq he
  unfold Hub.service
  rw [hr, he, List.length_cons, Hub.serve]
  simp only [he, hc, hf, if_true]

/-- The service goes on after a head that fails its re-check (R91 step 2). -/
theorem Hub.service_of_removed (h : Hub) {e : WaitEntry} {rest : List WaitEntry} {c : EndCause} (hm : h.motionAgrees)
    (hv : h.valvesAgree) (he : h.arbiter.queue = e :: rest) (hc : h.recheck e.axis = some c) :
    h.service = (h.endMotion e.axis c).service := by
  have hr : (h.endMotion e.axis c).arbiter.queue = rest := by
    rw [h.endMotion_eq e.axis c hm hv, Says.endedHub, Hub.postTo_arbiter]
    exact h.queue_behind hm.2.1 he
  have hd : (h.endMotion e.axis c).dequeue e.axis = h.endMotion e.axis c := by
    have : (h.endMotion e.axis c).arbiter.queue.filter (fun x => x.axis ≠ e.axis) = (h.endMotion e.axis c).arbiter.queue := by
      rw [hr]
      refine List.filter_eq_self.mpr fun x hx => ?_
      rw [← h.queue_behind hm.2.1 he] at hx
      exact (List.mem_filter.mp hx).2
    rw [Hub.dequeue, this]
  unfold Hub.service
  rw [hr, he, List.length_cons, Hub.serve]
  simp only [he, hc, hd]

/-- A kind is pending after a posting exactly when it was before, or is the kind posted and the role is named (R142). -/
theorem Says.posted_postTo (h : Hub) (n m : Notice) (l : List Role) (r : Role) :
    Says.posted (h.postTo n l) m r ↔ Says.posted h m r ∨ (r ∈ l ∧ n.bit.getLsbD m.number = true) := by
  unfold Says.posted
  rw [(Hub.postTo_get n l h r).1]
  split <;> simp [*]

/-- Every kind has its own bit of a notice set (R144). -/
theorem Notice.bit_self (n : Notice) : n.bit.getLsbD n.number = true := by
  cases n <;> first | rfl | (rename_i a; cases a <;> rfl)

/-- Whoever a posting names has the kind pending (R142). -/
theorem Says.posted_of_mem (h : Hub) (n : Notice) {l : List Role} {r : Role} (hr : r ∈ l) :
    Says.posted (h.postTo n l) n r := (Says.posted_postTo h n n l r).mpr (.inr ⟨hr, n.bit_self⟩)

theorem Says.posted_postAll (h : Hub) (n : Notice) (r : Role) : Says.posted (h.postAll n) n r :=
  Says.posted_of_mem h n (by cases r <;> simp)

/-- FEED HOLD evaluated again takes no kind back. -/
theorem Says.posted_evalFeedHold (h : Hub) (n : Notice) (r : Role) (hp : Says.posted h n r) :
    Says.posted h.evalFeedHold n r := by
  unfold Hub.evalFeedHold
  dsimp only
  split
  · exact (Says.posted_postTo _ _ _ _ _).mpr (.inl hp)
  · exact hp

/-- What a grant does to the tracker (R72, R107). -/
theorem Hub.reportGrant_reported (h : Hub) (a : Axis) (d : Direction) : Says.reported h (h.reportGrant a d) a d := by
  refine ⟨?_, ?_, ?_⟩
  · rintro b rfl rfl hb hg
    simp only [Hub.reportGrant, hb, hg, if_true]
    refine ⟨by simp [Hub.evalFeedHold_tracker, Tracker.put], fun hf => ?_,
      fun r => Says.posted_evalFeedHold _ _ _ (Says.posted_postAll _ _ _)⟩
    rw [Hub.evalFeedHold_tracker, hf]
    simp [Hub.feedHoldCondition, Tracker.stageAt, Tracker.at, Tracker.put, hb, hg]
  · rintro b rfl rfl hb hg
    simp only [Hub.reportGrant, hb, hg, if_true]
    exact ⟨by simp [Tracker.put], Says.posted_postAll _ _⟩
  · intro h1 h2
    unfold Hub.reportGrant
    split
    · split
      · rename_i b hb
        rw [if_neg fun hg => h1 ⟨rfl, rfl, by simp [Tracker.stageAt, Tracker.at, hb, hg]⟩]
      · rfl
    · split
      · rename_i b hb
        rw [if_neg fun hg => h2 ⟨rfl, rfl, by simp [Tracker.stageAt, Tracker.at, hb, hg]⟩]
      · rfl
    · rfl

/-- A grant reported to the tracker leaves the film part and the flags of the table bale (R107). -/
theorem Hub.reportGrant_tableParts (h : Hub) (a : Axis) (d : Direction) :
    (h.reportGrant a d).tracker.table.map (fun b => (b.film, b.flags)) = h.tracker.table.map (fun b => (b.film, b.flags)) := by
  have he : ∀ k : Hub, k.evalFeedHold.tracker.table = k.tracker.table := by
    intro k; unfold Hub.evalFeedHold; dsimp only; split <;> simp
  unfold Hub.reportGrant
  repeat' split
  all_goals first | rfl | simp_all [Hub.advance, Hub.postAll, Tracker.put]

/-- So does a service (R91). -/
theorem Hub.service_tableParts (h : Hub) :
    h.service.tracker.table.map (fun b => (b.film, b.flags)) = h.tracker.table.map (fun b => (b.film, b.flags)) :=
  Hub.service_induction (fun k => k.tracker.table.map (fun b => (b.film, b.flags)) = h.tracker.table.map (fun b => (b.film, b.flags)))
    (fun k e _ c hk _ _ => by simpa using hk)
    (fun k e _ hk _ _ _ => by
      have : (k.grantFromQueue e.axis).tracker = ((k.dequeue e.axis).grant e.axis).tracker := by simp [Hub.grantFromQueue, Hub.postAxis]
      rw [this, Hub.grant, Hub.reportGrant_tableParts]
      exact hk) h rfl

end Sys2Proof.Machine
end

