-- ==== Sys2Proof/Laws/Ports.lean ====
section
/-! SUPPORT. What a hand-over can do, and the form of a reply frame. -/

namespace Sys2Proof.Machine

/-! ### The hand-over -/

/-- A hand-over touches the ports, the handler and the order of completion, and nothing else (R171, R175). -/
theorem Hub.handOver_frame (h : Hub) :
    { h.handOver with ports := h.ports, handler := h.handler, heldOrder := h.heldOrder } = h := by
  unfold Hub.handOver; repeat' split
  all_goals rfl

/-- A busy handler takes no frame (R171). -/
theorem Hub.handOver_of_busy (h : Hub) (hb : h.handler ≠ .free) : h.handOver = h := by
  unfold Hub.handOver; split
  · exact absurd ‹_› hb
  · rfl

/-- No frame goes while every port that holds one is reply-pending (R175). -/
theorem Hub.handOver_of_pending (h : Hub) (hp : ∀ q, q ∈ h.heldOrder → (h.ports.get q).replyPending = true) : h.handOver = h := by
  have : h.nextHandOver = none := List.find?_eq_none.mpr fun q hq => by simp [hp q hq]
  unfold Hub.handOver; rw [this]; split
  · contradiction
  · rfl

/-- The first frame in the order of completion whose port is not reply-pending is handed over (R171, R175). -/
theorem Hub.handOver_takes (h : Hub) (before after : List Role) (q : Role) (f : Frame) (hf : h.handler = .free)
    (ho : h.heldOrder = before ++ q :: after) (hb : ∀ p, p ∈ before → (h.ports.get p).replyPending = true)
    (hq : (h.ports.get q).replyPending = false) (hr : (h.ports.get q).receiver = .holding f) :
    h.handOver = { h with
      ports := h.ports.set q { h.ports.get q with receiver := .waitMark, replyPending := true },
      handler := .handed q f, heldOrder := before ++ after } := by
  have hn : h.nextHandOver = some q := by
    unfold Hub.nextHandOver
    rw [ho, List.find?_append, List.find?_eq_none.mpr fun p hp => by simp [hb p hp]]
    simp [hq]
  have he : h.heldOrder.erase q = before ++ after := by
    rw [ho, List.erase_append_right _ fun hm => by simp [hb q hm] at hq, List.erase_cons_head]
  unfold Hub.handOver
  simp only [hf, hn, hr, Receiver.held, he]
  rfl

/-! ### Reply frames -/

/-- The mark bit takes nothing from the characters (R166). -/
@[simp] theorem marked_data (l : List Byte) : (marked l).map (·.data) = l := by
  cases l <;> simp [marked, List.map_map, Function.comp_def]

/-- The characters of a reply frame: count, entries, sum (R173). -/
theorem replyFrame_data (es : List Entry) :
    (replyFrame es).map (·.data) =
      (BitVec.ofNat 8 ((es.flatMap Entry.chars).length + 1) :: es.flatMap Entry.chars) ++
        [0xFF#8 - charSum (BitVec.ofNat 8 ((es.flatMap Entry.chars).length + 1) :: es.flatMap Entry.chars)] :=
  by rw [replyFrame, marked_data]

/-- The sum of characters with one more at the end. -/
theorem charSum_concat (l : List Byte) (x : Byte) : charSum (l ++ [x]) = charSum l + x := by simp [charSum]

end Sys2Proof.Machine
end

