-- ==== Sys2Proof/Tests/Slice0.lean ====
section
/-! SUPPORT. The model's own tests: what WellFormed refuses, small examples of the spec, one step each, and for every statement
with hypotheses a state and operands that meet them all (the theorems named test_met_...). -/

open Sys2Proof Sys2Proof.Machine Sys2Proof.Machine.Says

namespace Sys2Proof.Tests

/-! ### WellFormed refuses what no command can carry -/

theorem test_wellFormed_edgeWithoutTime : (Instr.inclinometerEdge true 0).wellFormed = false := by decide
theorem test_wellFormed_edgeAfterSomeTime : (Instr.inclinometerEdge true 1).wellFormed = true := by decide
theorem test_wellFormed_handoverOfNoItem : (Instr.frameHandover .ch 0).wellFormed = false := by decide
theorem test_wellFormed_handoverOfFiveItems : (Instr.frameHandover .ch 5).wellFormed = false := by decide
theorem test_wellFormed_handoverOfFourItems : (Instr.frameHandover .ch 4).wellFormed = true := by decide
theorem test_noWordSpellsACommand : decodeTableWord 8 0x11 = none := by decide
theorem test_withFetchWord_reset : State.reset.withFetchWord 8 0x11 = State.reset := by decide

/-! ### Small states -/

/-- The state after one command; the state itself where the command does not answer next. -/
def after (c : Instr) (s : State) : State := match exec c s with | .next t => t | .fault _ | .refused _ => s

/-- The state after several commands. -/
def afterAll (cs : List Instr) (s : State) : State := cs.foldl (fun s c => after c s) s

/-- The verdict of the item taken last. -/
def verdictOf (s : State) : Option Verdict := s.hub.lastEntry.map (·.answer.verdict)

/-- The result data of the item taken last. -/
def dataOf (s : State) : Option (List Byte) := s.hub.lastEntry.map (·.answer.data)

/-- The command answers a next state. -/
def goes (c : Instr) (s : State) : Bool := match exec c s with | .next _ => true | .fault _ | .refused _ => false

/-- The voltages that give these readings (R183). -/
def volts (flap tailgate cradle tilt cutter : Nat) : Voltages :=
  ⟨1000 * flap, 1000 * tailgate, 1000 * cradle, 1000 * tilt, 1000 * cutter⟩

/-- An entry of type OPEN that allows every other axis both directions. -/
def openEntry : ZoneEntry := ⟨.openZone, ⟨.both, .both, .both, .both, .both⟩⟩

/-- A lawful map of one axis with seven boundaries, every entry open. -/
def openMap (step : Nat) : AxisMap :=
  ⟨⟨step, 2 * step, 3 * step, 4 * step, 5 * step, 6 * step, 7 * step⟩,
    ⟨openEntry, openEntry, openEntry, openEntry, openEntry, openEntry, openEntry, openEntry, openEntry⟩⟩

/-- The parameters of chapter 12, with every axis claimable by every role. -/
def params : Params :=
  { Params.reset with
    flowBudget := 150, demand := ⟨40, 60, 50, 30, 35, 10⟩, urgentOk := ⟨true, false, false, false, false, false⟩,
    claimants := .all 7#3, ringPark := 180, tableLateLimit := 90 }

/-- In RUN with a lawful open map, every position valid at 1000 in zone 2, the ring referenced at 170, the slope valid at 30. -/
def run : State :=
  { State.reset with hub := { State.reset.hub with
    map := ⟨openMap 500, openMap 500, openMap 500, openMap 100, openMap 500, openMap 500⟩,
    sampler := { State.reset.hub.sampler with
      sense := ⟨⟨1000, 1000, true, .number 2⟩, ⟨1000, 1000, true, .number 2⟩, ⟨1000, 1000, true, .number 2⟩,
        ⟨0, 170, true, .number 1⟩, ⟨1000, 1000, true, .number 2⟩, ⟨1000, 1000, true, .number 2⟩⟩,
      fresh := false, sampled := true, ringReferenced := true, ringPosition := 170, slope := 30, slopeValid := true, sampledSlope := 30,
      sampledSlopeValid := true },
    params := params,
    control := { mode := .run, stopLatch := false, mapChecked := true, lastReset := .powerOn, restartPending := false } } }

/-- A claimed axis. -/
def claimedBy (a : Axis) (r : Role) (s : State) : State :=
  { s with hub := s.hub.setRecord a { s.hub.record a with state := .claimed, holder := some r, lease := 3000 } }

/-- A moving axis: EXTEND, hold time 80, granted last. -/
def movingBy (a : Axis) (r : Role) (t : Target) (c : MotionClass) (s : State) : State :=
  { s with hub := (({ s.hub with arbiter := { s.hub.arbiter with
      inUse := s.hub.arbiter.inUse + s.hub.demand a, grantOrder := s.hub.arbiter.grantOrder ++ [a] } }.setValves a
        (.towards .extend)).setRecord a
    { s.hub.record a with state := .moving, holder := some r, target := t, cls := c, holdTime := 80, lease := 80,
                          flow := s.hub.demand a }) }

/-- A waiting axis: EXTEND to 2000, its entry at the tail of the queue. -/
def waitingBy (a : Axis) (r : Role) (s : State) : State :=
  { s with hub := ({ s.hub with arbiter := { s.hub.arbiter with
      queue := s.hub.arbiter.queue ++ [(⟨a, .normal, 1000⟩ : WaitEntry)] } }.setRecord a
    { s.hub.record a with state := .waiting, holder := some r, target := .to 2000, holdTime := 80, lease := 3000 }) }

/-- A bale with both parts. -/
def bale (n : Nat) (g : Stage) : Bale :=
  ⟨n, g, BaleFlags.empty, 7#32, none, some ⟨40, 10⟩, some 0, some ⟨24, 4, []⟩, none, none⟩

/-- A bale put at a place. -/
def withBale (p : Place) (b : Bale) (s : State) : State :=
  { s with hub := { s.hub with tracker := s.hub.tracker.put p (some b) } }

/-- A record in the log. -/
def logged (n : Nat) : Bale := ⟨n, .dropped, BaleFlags.empty, 1#32, none, none, none, none, none, some 9#32⟩

/-- A log of `n` records, numbered from 1000. -/
def withLog (n : Nat) (s : State) : State :=
  { s with hub := { s.hub with tracker := { s.hub.tracker with log := (List.range n).map (fun i => logged (1000 + i)) } } }

/-- Another mode. -/
def inMode (m : Mode) (s : State) : State := { s with hub := { s.hub with control := { s.hub.control with mode := m } } }

/-- The tailgate moving for CH, the ring in RUN for WR, the cutter waiting for CT, the tilt claimed by WR, bale 21 WRAPPING on the
table and bale 22 BINDING in the chamber, one record in the log. -/
def busy : State :=
  withLog 1 (withBale .chamber (bale 22 .binding) (withBale .table (bale 21 .wrapping)
    (waitingBy .cutter .ct (claimedBy .tilt .wr (movingBy .ring .wr .run .normal
      (movingBy .tailgate .ch (.to 3000) .normal run))))))

/-! ### Checks that the soundness predicates can be decided by -/

/-- Every axis passes a check. -/
def everyAxis (p : Axis → Bool) : Bool := p .flap && p .tailgate && p .cradle && p .ring && p .tilt && p .cutter

theorem everyAxis_spec {p : Axis → Bool} (h : everyAxis p = true) (a : Axis) : p a = true := by
  simp only [everyAxis, Bool.and_eq_true] at h
  obtain ⟨⟨⟨⟨⟨h0, h1⟩, h2⟩, h3⟩, h4⟩, h5⟩ := h
  cases a <;> assumption

/-- The check behind motionAgrees and valvesAgree. -/
def soundCheck (h : Hub) : Bool :=
  everyAxis (fun a => decide (((h.record a).state = .idle ↔ (h.record a).holder = none) ∧
      ((h.record a).state = .idle → (h.record a).lease = 0) ∧
      ((h.record a).flow = if (h.record a).state = .moving then h.demand a else 0) ∧
      (h.arbiter.queue.any (fun e => decide (e.axis = a)) = true ↔
        (h.record a).state = .waiting ∨ (h.record a).state = .paused) ∧
      (a ∈ h.arbiter.grantOrder ↔ (h.record a).state = .moving) ∧
      (h.control.mode ≠ .run → (h.record a).state = .idle) ∧
      (h.claims.valves.get a = if (h.record a).state = .moving then .towards (h.record a).direction else .off))) &&
    decide ((h.arbiter.queue.map (·.axis)).Nodup ∧
      (∀ e, e ∈ h.arbiter.queue → (e.cls = .resume ↔ (h.record e.axis).state = .paused)) ∧ h.arbiter.grantOrder.Nodup ∧
      h.arbiter.inUse = (h.arbiter.grantOrder.map h.demand).sum ∧ h.arbiter.inUse ≤ h.params.flowBudget)

theorem sound_of_check {s : State} (h : soundCheck s.hub = true) : sound s := by
  simp only [soundCheck, Bool.and_eq_true, decide_eq_true_eq] at h
  obtain ⟨ha, h1, h2, h3, h4, h5⟩ := h
  have hall := fun a => of_decide_eq_true (everyAxis_spec ha a)
  refine ⟨⟨fun a => ⟨(hall a).1, (hall a).2.1, (hall a).2.2.1⟩, ⟨h1, fun a => ?_, h2⟩,
    ⟨h3, fun a => (hall a).2.2.2.2.1, h4, h5⟩, fun hm a => (hall a).2.2.2.2.2.1 hm⟩, fun a => (hall a).2.2.2.2.2.2⟩
  rw [← (hall a).2.2.2.1, List.any_eq_true]
  simp only [decide_eq_true_eq]

theorem test_met_busyIsSound : sound busy := sound_of_check (by decide)
theorem test_met_runIsSound : sound run := sound_of_check (by decide)

/-- Every premise of the invariants holds of one state that is not the reset state. -/
theorem test_met_invariants :
    busy.hub.linesAgree ∧ busy.hub.valvesAgree ∧ busy.hub.latchAgrees ∧ busy.hub.feedHoldAgrees ∧
      busy.hub.tracker.stagesAgree ∧ busy.hub.tracker.logBounded ∧ busy.hub.tracker.numbersAgree ∧ busy.hub.countsAgree ∧
      busy.hub.motionAgrees ∧ busy.hub.bandsAgree ∧ busy.hub.interlocked ∧ busy.hub.zonesAgree ∧
      busy.hub.mapFailure = none := by
  have hs := test_met_busyIsSound
  refine ⟨fun r => by cases r <;> rfl, hs.2, by unfold Hub.latchAgrees; decide, rfl, fun p b hb => ?_,
    by unfold Tracker.logBounded; decide, by unfold Tracker.numbersAgree; decide,
    ⟨fun p b hb => ?_, fun b hb => ?_, by decide, by decide⟩, hs.1, by unfold Hub.bandsAgree; decide, fun a ha => ?_,
    fun a => by cases a <;> decide, by decide⟩
  · cases p <;> cases hb <;> rfl
  · cases p <;> cases hb <;> exact ⟨fun f hf => (by cases hf; decide), fun n hn => (by cases hn; decide)⟩
  · have hb : b = logged 1000 := by simpa [busy, withLog] using hb
    subst hb
    exact ⟨fun f hf => (by cases hf), fun n hn => (by cases hn)⟩
  · cases a <;> first
      | exact absurd ha (by decide)
      | exact ⟨by decide, fun b hb => (by cases b <;> decide)⟩

theorem test_met_parametersAgree : busy.hub.paramsAgree := by
  refine ⟨by decide, fun a => by cases a <;> decide, by decide⟩

theorem test_met_stepGoes : ∃ t, step { busy with pending := [.netPulse] } = .next t := ⟨_, rfl⟩

/-! ### Power-on, the clock, the sampler -/

theorem test_met_powerOn :
    (⟨false, true, false, false, true, false, false⟩ : Levels).stop = false ∧
      (⟨false, true, false, false, true, false, true⟩ : Levels).stop = true := by decide

theorem test_powerOn_withTheChainOpen :
    (after (.powerOn ⟨false, false, false, false, false, false, true⟩) run).hub.control.mode = .stopped := by decide

theorem test_met_tenMilliseconds : State.reset.pending = [] ∧ State.reset.hub.dueCommands = [] := ⟨rfl, rfl⟩

/-- A claimed axis whose lease has run out, alone and beside a full second of the field clock. -/
def leaseRunOut : State := { claimedBy .flap .ch run with
  hub := (claimedBy .flap .ch run).hub.setRecord .flap { (claimedBy .flap .ch run).hub.record .flap with lease := 0 } }

theorem test_met_aDueCommandIsTaken :
    leaseRunOut.pending = [] ∧ leaseRunOut.hub.dueCommands = [.leaseExpiry .flap] ∧
      { leaseRunOut.hub with clock := ⟨0#32, 100⟩ }.dueCommands = [.leaseExpiry .flap, .fieldClockTick] := by decide

theorem test_dueCommand_dropsTheClaim : ∃ t, step leaseRunOut = .next t ∧ (t.hub.record .flap).lastEnd = .expired := ⟨_, rfl, rfl⟩

theorem test_met_pins :
    run.hub.sampler.sampled = true ∧ State.reset.hub.sampler.sampled = false ∧
      (∀ l, Instr.netPulse ≠ .powerOn l) ∧ ∀ v, Instr.netPulse ≠ .sample v :=
  ⟨rfl, rfl, fun _ => Instr.noConfusion, fun _ => Instr.noConfusion⟩

/-- Until the first sample the enables and FEED HOLD are low and the attention lines high; then a pin follows its output (R183). -/
theorem test_pins_fromTheFirstSample :
    let s := movingBy .tailgate .ch (.to 3000) .normal { run with hub := { run.hub with
      sampler := { run.hub.sampler with sampled := false }, notices := run.hub.notices.set .wr ⟨1#17, 1#17, true⟩ } }
    let t := after (.sample (volts 1000 1000 1000 1000 1000)) s
    (s.hub.pins.valves.tailgate.extend, s.hub.pins.attention.wr) = (false, true) ∧
      (t.hub.pins.valves.tailgate.extend, t.hub.pins.attention.wr) = (true, false) := by decide

theorem test_tenMilliseconds_countALease :
    ∃ t, step (claimedBy .flap .ch run) = .next t ∧ (t.hub.record .flap).lease = 2999 := ⟨_, rfl, rfl⟩

theorem test_fieldClock_wraps :
    (after .fieldClockTick { run with hub := { run.hub with clock := ⟨4294967295#32, 5⟩ } }).hub.clock = ⟨0#32, 0⟩ := by decide

/-- R3 at its edges: 15 and 4080 are invalid, 16 and 4079 valid. -/
theorem test_sample_readingLimits :
    let t := after (.sample (volts 15 16 4079 4080 1200)) run
    (t.hub.sense .flap).zone = .unknown ∧ (t.hub.sense .tailgate).position = 16 ∧
      (t.hub.sense .cradle).zone = .number 7 ∧ (t.hub.sense .tilt).valid = false ∧
      (t.hub.sense .cutter).zone = .number 2 := by decide

/-- R183: 3.0 V and more give 4095, and a whole step is exact. -/
theorem test_rawReading_limits : [0, 1000, 4094000, 4095000, 5000000].map rawReading = [0, 1, 4094, 4095, 4095] := by decide

/-- A state whose last sample found the flap below 16. -/
def flapLost : State := after (.sample (volts 5 1000 1000 1000 1000)) run

theorem test_met_stayingInvalid :
    flapLost.hub.captured (volts 15 1000 1000 1000 1000) .flap = 15 ∧ (flapLost.hub.sense .flap).valid = false ∧
      flapLost.hub.sampler.fresh = false ∧
      [Axis.tailgate, .cradle, .tilt, .cutter].all (fun a =>
        16 ≤ flapLost.hub.captured (volts 15 1000 1000 1000 1000) a ∧
          flapLost.hub.captured (volts 15 1000 1000 1000 1000) a ≤ 4079) = true := by decide

/-- R9's example: readings 1200, 1199, 299 and 3950 over boundaries 300, 600, 1200, 1800, 2400, 3000, 3700. -/
theorem test_sample_zonesOfTheExample :
    let b : Bounds := ⟨300, 600, 1200, 1800, 2400, 3000, 3700⟩
    [1200, 1199, 299, 3950].map (fun p => (b.zoneOf p).code) = [3, 2, 0, 7] := by decide

theorem test_met_losingAPosition :
    State.reset.hub.captured (volts 15 16 16 16 16) .flap < 16 ∧ State.reset.hub.sampler.fresh = true ∧
      4079 < run.hub.captured (volts 4080 16 16 16 16) .flap ∧ (run.hub.sense .flap).valid = true := by decide

theorem test_met_sampleEndsMotions :
    busy.hub.motionAgrees ∧ (busy.hub.record .tailgate).state = .moving ∧ (busy.hub.record .tailgate).target = .to 3000 ∧
      (busy.hub.record .ring).target = .run ∧ (busy.hub.record .tilt).state = .claimed :=
  ⟨test_met_busyIsSound.1, by decide⟩

/-- The tailgate reads 2992, inside the tolerance of 8 around 3000, and arrives (R74). -/
theorem test_sample_arrival :
    ((after (.sample (volts 1000 2992 1000 1000 1000)) busy).hub.record .tailgate).lastEnd = .arrived := by decide

/-- The tailgate reads 2991 and moves on. -/
theorem test_sample_noArrivalYet :
    ((after (.sample (volts 1000 2991 1000 1000 1000)) busy).hub.record .tailgate).state = .moving := by decide

theorem test_ringCount_completesARevolution :
    let s := { busy with hub := { busy.hub with sampler := { busy.hub.sampler with ringPosition := 719 } } }
    let t := after .ringCount s
    t.hub.sampler.ringPosition = 0 ∧ t.hub.tracker.table.map (·.film) = some (some ⟨24, 6, []⟩) := by decide

/-- R6 at its edge: an index at 359 counts no revolution, at 360 it counts one. -/
theorem test_ringIndexCount_halfTurn :
    let s := fun p => { busy with hub := { busy.hub with sampler := { busy.hub.sampler with ringPosition := p } } }
    (after .ringIndexCount (s 359)).hub.tracker.table.map (·.film) = some (some ⟨24, 4, []⟩) ∧
      (after .ringIndexCount (s 360)).hub.tracker.table.map (·.film) = some (some ⟨24, 6, []⟩) := by decide

/-- A state that has measured this high time in the current period. -/
def measuring (high : Nat) : State :=
  { run with hub := { run.hub with sampler := { run.hub.sampler with period := .lowPart high false, edgeTimer := .running 9 } } }

theorem test_met_slopeIsMeasured :
    (measuring 530).hub.sampler.period = .lowPart 530 false ∧ 0 < 470 ∧ 470 ≤ 100000 ∧
      2 * 530 * (530 + 470) < 2000 * 530 + (530 + 470) ∧ 2000 * 530 < 2 * 530 * (530 + 470) + (530 + 470) := by decide

/-- Duty 53.0 % is a slope of 3.0 degrees (R12). -/
theorem test_inclinometerEdge_slope : (after (.inclinometerEdge true 470) (measuring 530)).hub.sampler.slope = 30 := by decide

theorem test_met_edgeTimerRunsOut : (measuring 530).hub.sampler.edgeTimer = .running 9 := by decide

/-- A state in the high part of a period. -/
def inHighPart : State :=
  { run with hub := { run.hub with sampler := { run.hub.sampler with period := .highPart false, edgeTimer := .running 10 } } }

theorem test_met_edgesOfAPeriod :
    inHighPart.hub.sampler.period = .highPart false ∧ (∀ high, inHighPart.hub.sampler.period ≠ .lowPart high false) ∧
      inHighPart.hub.sampler.edgeTimer = .running 10 :=
  ⟨rfl, fun _ h => Period.noConfusion h, rfl⟩

/-- The timer running, its expiry taken, and no edge yet. -/
theorem test_met_lateEdges :
    100000 < 100001 ∧ inHighPart.hub.sampler.edgeTimer = .running 10 ∧
      (after .inclinometerTimeout inHighPart).hub.sampler.edgeTimer = .ranOut ∧
      (after .inclinometerTimeout inHighPart).hub.sampler.period = .highPart true ∧
      State.reset.hub.sampler.edgeTimer = .stopped := by decide

/-- The period after a falling edge in each part of a period. -/
theorem test_inclinometerEdge_falling :
    [Period.noPeriod, .highPart false, .highPart true, .lowPart 7 false].map (fun p =>
      (after (.inclinometerEdge false 100000) { inHighPart with hub := { inHighPart.hub with
        sampler := { inHighPart.hub.sampler with period := p } } }).hub.sampler.period) =
      [.noPeriod, .lowPart 100000 false, .lowPart 100000 true, .lowPart 7 true] := by decide

/-- An edge after INCLINOMETER_TIMEOUT restarts the timer and leaves the slope invalid (R13). -/
theorem test_inclinometerEdge_afterTheTimeout :
    let t := afterAll [.inclinometerTimeout, .inclinometerEdge false 100001, .inclinometerEdge true 400] inHighPart
    (t.hub.sampler.edgeTimer, t.hub.sampler.slopeValid, t.hub.sampler.slope) = (.running 10, false, 30) := by decide

/-- R13 at its edge: a period divided at 100 ms is measured, one divided later is not (log 6). -/
theorem test_inclinometerEdge_edgeTimer :
    [100000, 100001].map (fun n =>
      (after (.inclinometerEdge true n) (after (.inclinometerEdge false n) inHighPart)).hub.sampler.slopeValid) =
        [true, false] := by decide

theorem test_inclinometerTimeout_invalidates :
    (after .inclinometerTimeout (measuring 530)).hub.sampler.slopeValid = false := by decide

/-! ### Items that are refused, the map and the gates -/

theorem test_met_refusedItems :
    ∃ code f t e, itemOf (.claim .ch 6#8) = some (code, f) ∧ exec (.claim .ch 6#8) run = .next t ∧
      t.hub.lastEntry = some e ∧ e.answer.verdict.isRefusal = true := ⟨_, _, _, _, rfl, rfl, rfl, rfl⟩

theorem test_met_zoneItems :
    5 < (6#8).toNat ∧ 9 < (10#8).toNat ∧ 8 < (9#8).toNat ∧ 3 < (4#8).toNat ∧ Role.ct ≠ .ch ∧
      State.reset.hub.control.mode = .setup ∧ run.hub.control.mode ≠ .setup := by decide

theorem test_zoneGet_bounds :
    dataOf (after (.zoneGet .wr 3#8 9#8) run) =
      some [3#8, 9#8, 0#8, 100#8, 0#8, 200#8, 1#8, 44#8, 1#8, 144#8, 1#8, 244#8, 2#8, 88#8, 2#8, 188#8] := by decide

/-- R37's limits: 719 is the greatest boundary of the ring. -/
theorem test_zoneSetBounds_ringLimit :
    verdictOf (after (.zoneSetBounds .ct 3#8 ⟨1#16, 2#16, 3#16, 4#16, 5#16, 6#16, 719#16⟩) State.reset) = some .ok ∧
      verdictOf (after (.zoneSetBounds .ct 3#8 ⟨1#16, 2#16, 3#16, 4#16, 5#16, 6#16, 720#16⟩) State.reset) = some .badValue := by
  decide

theorem test_zoneSetEntry_writesTheEntry :
    (((after (.zoneSetEntry .ct 1#8 8#8 3#8 ⟨0#8, 1#8, 2#8, 3#8, 0#8⟩) State.reset).hub.map.get .tailgate).entries.get .unknown) =
      ⟨.keepOut, ⟨.none, .extend, .retract, .both, .none⟩⟩ := by decide

/-- The permission test: the flap in zone 2 with the tailgate's entry forbidding it is refused by axis 1 (R23, R60). -/
theorem test_permission_refuser :
    let shut : ZoneEntry := ⟨.openZone, ⟨.retract, .both, .both, .both, .both⟩⟩
    let s := { run with hub := { run.hub with
      map := run.hub.map.set .tailgate { openMap 500 with entries := (openMap 500).entries.set (.number 2) shut } } }
    s.hub.permitted .flap .extend = false ∧ s.hub.permitted .flap .retract = true ∧
      s.hub.firstRefuser .flap .extend = some .tailgate := by decide

/-! ### Claims, leases, motions -/

/-- The example of 11: CLAIM TAILGATE from CH arrives as five characters and is answered with nine (R169, R173, R178, R179). -/
theorem test_claim_frameOfTheExample :
    let s := afterAll [.characterReceive .ch 0x04#8 true true, .characterReceive .ch 0x11#8 false true,
      .characterReceive .ch 0x01#8 false true, .characterReceive .ch 0x01#8 false true,
      .characterReceive .ch 0xE8#8 false true, .frameHandover .ch 1] run
    s.hub.ports.ch.sending = some (marked [0x08#8, 0x11#8, 0x00#8, 0x04#8, 0x01#8, 0x00#8, 0x0B#8, 0xB8#8, 0x1E#8]) := by decide

theorem test_claim_ofAnotherRolesAxis : verdictOf (after (.claim .wr 1#8) (claimedBy .tailgate .ch run)) = some .busy := by decide

/-- An axis whose lease ran out under WR. -/
def lateTilt : State :=
  { run with hub := run.hub.setRecord .tilt { run.hub.record .tilt with lastHolder := some .wr, lastEnd := .expired } }

theorem test_met_refreshReleaseMoveStop :
    late (lateTilt.hub.record .tilt) .wr ∧ (¬ late (lateTilt.hub.record .tilt) .ch ∧ (lateTilt.hub.record .tilt).holder ≠ some .ch) ∧
      ((claimedBy .flap .ch run).hub.record .flap).holder = some .ch ∧
      ((claimedBy .flap .ch run).hub.record .flap).state = .claimed ∧ 5 < (6#8).toNat ∧ 2 < (3#8).toNat := by
  unfold late; decide

theorem test_refresh_late : verdictOf (after (.refresh .wr 4#8) lateTilt) = some .late := by decide

theorem test_handover_toCt :
    let t := after (.handover .wr 5#8 2#8) (claimedBy .cutter .wr run)
    (t.hub.record .cutter).holder = some .ct ∧ verdictOf t = some .ok := by decide

theorem test_met_endsOfMotions :
    sound busy ∧ inFlight (busy.hub.record .tailgate) ∧ (busy.hub.record .tailgate).holder = some .ch ∧
      inFlight (busy.hub.record .cutter) ∧ (∃ e ∈ busy.hub.arbiter.queue, e.axis = .cutter) ∧ busy.hub.control.mode = .run ∧
      (busy.hub.record .tilt).state = .claimed ∧ (busy.hub.record .tilt).holder = some .wr ∧
      ¬ late (busy.hub.record .tilt) .wr ∧ ¬ inFlight (busy.hub.record .tilt) := by
  refine ⟨test_met_busyIsSound, .inr (.inl (by decide)), by decide, .inl (by decide), by decide, by decide, by decide, by decide,
    fun h => absurd h.1 (by decide), ?_⟩
  rintro (h | h | h) <;> exact absurd h (by decide)

theorem test_release_movingTailgate :
    let t := after (.release .ch 1#8) busy
    t.hub.claims.valves.tailgate = .off ∧ t.hub.arbiter.grantOrder = [.ring, .cutter] ∧
      (t.hub.record .tailgate).lastHolder = some .ch := by decide

/-- 12.5 B: the lease of a MOVING axis runs out, and the service grants what waited (R53, R91). -/
theorem test_leaseExpiry_letsTheCutterMove :
    let t := after (.leaseExpiry .tailgate) busy
    (t.hub.record .tailgate).lastEnd = .expired ∧ (t.hub.record .cutter).state = .moving := by decide

theorem test_waitTimeout_cause : ((after (.waitTimeout .cutter) busy).hub.record .cutter).lastEnd = .waitTimeout := by decide

theorem test_axisRead_hasTwentyOneCharacters : (dataOf (after (.axisRead .ct 4#8) busy)).map List.length = some 21 := by decide

theorem test_flowRead_reports :
    dataOf (after (.flowRead .ch) busy) =
      some [150#8, 90#8, 2#8, 1#8, 0#8, 60#8, 3#8, 0#8, 30#8, 1#8, 5#8, 0#8, 10#8, 2#8, 3#8, 232#8] := by decide

/-- The flap claimed by CH, with nothing moving and nothing waiting. -/
def flapClaimed : State := claimedBy .flap .ch run

theorem test_met_moveIsGrantedAtOnce :
    let s := flapClaimed
    s.hub.control.mode = .run ∧ (s.hub.record .flap).state = .claimed ∧ (s.hub.record .flap).holder = some .ch ∧
      (s.hub.sense .flap).valid = true ∧ s.hub.valueFault .flap .extend (targetOf 2000#16) (80#8).toNat (some .normal) = none ∧
      s.hub.targetReached .flap (targetOf 2000#16) = false ∧ s.hub.targetKeptOut .flap (targetOf 2000#16) = false ∧
      s.hub.permitted .flap .extend = true ∧ s.hub.gateHolds .flap .extend (targetOf 2000#16) = true ∧
      s.hub.arbiter.queue = [] ∧ s.hub.params.demand.get .flap + s.hub.arbiter.inUse ≤ s.hub.params.flowBudget := by decide

theorem test_met_moveIsQueued :
    let s := claimedBy .flap .ch busy
    s.hub.control.mode = .run ∧ (s.hub.record .flap).state = .claimed ∧ (s.hub.record .flap).holder = some .ch ∧
      (s.hub.sense .flap).valid = true ∧ s.hub.valueFault .flap .extend (targetOf 2000#16) (80#8).toNat (some .normal) = none ∧
      s.hub.targetReached .flap (targetOf 2000#16) = false ∧ s.hub.targetKeptOut .flap (targetOf 2000#16) = false ∧
      s.hub.permitted .flap .extend = true ∧ s.hub.gateHolds .flap .extend (targetOf 2000#16) = true ∧
      s.hub.arbiter.queue ≠ [] := by decide

/-- The flap claimed by CH, with one thing about the flap or its neighbours changed. -/
def flapClaimedWith (f : Hub → Hub) : State := { flapClaimed with hub := f flapClaimed.hub }

/-- The flap's zone 4 a KEEP_OUT zone. -/
def keepOutAhead (h : Hub) : Hub :=
  { h with map := h.map.set .flap { openMap 500 with entries := (openMap 500).entries.set (.number 4) { openEntry with kind := .keepOut } } }

/-- The flap's zone 2 a HIGH_END zone. -/
def atTheHighEnd (h : Hub) : Hub :=
  { h with map := h.map.set .flap { openMap 500 with entries := (openMap 500).entries.set (.number 2) { openEntry with kind := .highEnd } } }

/-- The tailgate's current entry allows the flap RETRACT alone. -/
def tailgateRefuses (h : Hub) : Hub :=
  { h with map := h.map.set .tailgate { openMap 500 with
      entries := (openMap 500).entries.set (.number 2) ⟨.openZone, ⟨.retract, .both, .both, .both, .both⟩⟩ } }

/-- Steps 4 to 9 of a MOVE, each with a state and operands at which its check is the first that fails. -/
theorem test_met_moveIsRefusedAtItsSteps :
    let lost := flapClaimedWith (fun h => { h with sampler := { h.sampler with
      sense := h.sampler.sense.set .flap ⟨5, 1000, false, .unknown⟩ } })
    let tail := claimedBy .tailgate .ch (withBale .chamber (bale 5 .forming) run)
    (lost.hub.sense .flap).valid = false ∧
      flapClaimed.hub.valueFault .flap .extend (targetOf 2000#16) (4#8).toNat (argClass 0#8) = some .badValue ∧
      tail.hub.valueFault .tailgate .extend (targetOf 2000#16) (80#8).toNat (argClass 1#8) = some .notAllowed ∧
      (flapClaimedWith keepOutAhead).hub.targetKeptOut .flap (targetOf 2000#16) = true ∧
      ¬ ownZoneAllows (flapClaimedWith atTheHighEnd).hub .flap .extend ∧
      tail.hub.valueFault .tailgate .extend (targetOf 2000#16) (80#8).toNat (argClass 0#8) = none ∧
      tail.hub.targetReached .tailgate (targetOf 2000#16) = false ∧ tail.hub.targetKeptOut .tailgate (targetOf 2000#16) = false ∧
      ownZoneAllows tail.hub .tailgate .extend ∧ tail.hub.gateHolds .tailgate .extend (targetOf 2000#16) = false ∧
      ownZoneAllows flapClaimed.hub .flap .extend ∧ flapClaimed.hub.gateHolds .flap .extend (targetOf 2000#16) = true ∧
      refuses (flapClaimedWith tailgateRefuses).hub .flap .extend .tailgate ∧
      ¬ refuses (flapClaimedWith tailgateRefuses).hub .flap .extend .flap := by
  unfold ownZoneAllows refuses; decide

/-- The same states, answered. -/
theorem test_move_answersOfTheSteps :
    let ask := fun s => verdictOf (after (.move .ch ⟨0#8, 0#8, 2000#16, 80#8, 0#8⟩) s)
    (ask (flapClaimedWith keepOutAhead), ask (flapClaimedWith atTheHighEnd), ask (flapClaimedWith tailgateRefuses)) =
        (some .interlock, some .interlock, some .interlock) ∧
      (dataOf (after (.move .ch ⟨0#8, 0#8, 2000#16, 80#8, 0#8⟩) (flapClaimedWith tailgateRefuses))).map List.getLast? =
        some (some 1#8) := by decide

theorem test_met_retargetIsRefused :
    let urgentFlap := movingBy .flap .ch (.to 3000) .normal run
    let barred := { busy.hub with map := busy.hub.map.set .tailgate { openMap 500 with
      entries := (openMap 500).entries.set (.number 5) { openEntry with kind := .keepOut } } }
    (busy.hub.record .ring).target = .run ∧ targetOf 100#16 ≠ .run ∧
      busy.hub.valueFault .tailgate .extend (targetOf 2500#16) (4#8).toNat (argClass 0#8) = some .badValue ∧
      busy.hub.valueFault .tailgate .extend (targetOf 2500#16) (80#8).toNat (argClass 1#8) = some .notAllowed ∧
      urgentFlap.hub.valueFault .flap .extend (targetOf 2500#16) (80#8).toNat (argClass 1#8) = none ∧
      argClass 1#8 ≠ some (urgentFlap.hub.record .flap).cls ∧
      barred.valueFault .tailgate .extend (targetOf 2500#16) (80#8).toNat (argClass 0#8) = none ∧
      argClass 0#8 = some (barred.record .tailgate).cls ∧ barred.targetReached .tailgate (targetOf 2500#16) = false ∧
      barred.targetKeptOut .tailgate (targetOf 2500#16) = true := by decide

theorem test_move_fitsButAnEntryWaits : verdictOf (after (.move .ch ⟨0#8, 0#8, 2000#16, 80#8, 0#8⟩) (claimedBy .flap .ch busy)) =
    some .queued := by decide

/-- The state of 12.4 before its first event: CRADLE and RING move NORMAL, the flap is claimed, 20 of 100 units free. -/
def preemption : State :=
  let s := claimedBy .flap .ch (movingBy .ring .wr .run .normal (movingBy .cradle .wr (.to 2000) .normal
    (withBale .table (bale 30 .wrapping) run)))
  { s with hub := { s.hub with params := { s.hub.params with flowBudget := 100 } } }

theorem test_met_urgentMove :
    let s := preemption
    sound s ∧ s.hub.control.mode = .run ∧ (s.hub.record .flap).state = .claimed ∧ (s.hub.record .flap).holder = some .ch ∧
      (s.hub.sense .flap).valid = true ∧ s.hub.valueFault .flap .extend (targetOf 2000#16) (80#8).toNat (some .urgent) = none ∧
      s.hub.targetReached .flap (targetOf 2000#16) = false ∧ s.hub.targetKeptOut .flap (targetOf 2000#16) = false ∧
      s.hub.permitted .flap .extend = true ∧ s.hub.gateHolds .flap .extend (targetOf 2000#16) = true ∧
      (∀ e ∈ s.hub.arbiter.queue, e.cls ≠ .urgent) ∧
      s.hub.params.flowBudget < s.hub.params.demand.get .flap + s.hub.arbiter.inUse ∧
      s.hub.params.demand.get .flap + s.hub.arbiter.inUse ≤ s.hub.params.flowBudget +
        ((s.hub.arbiter.grantOrder.filter (fun b => (s.hub.record b).cls = .normal)).map s.hub.params.demand.get).sum ∧
      s.hub.params.demand.get .flap + s.hub.arbiter.inUse ≤ s.hub.params.flowBudget +
        ((s.hub.arbiter.grantOrder.filter (fun b =>
          (s.hub.record b).cls = .normal ∧ 0 < s.hub.params.demand.get b)).reverse.map s.hub.params.demand.get).sum :=
  ⟨sound_of_check (by decide), by decide⟩

/-- 12.4, event 1: the ring alone is paused, the flap is granted, and the ring's entry waits (R87, R88). -/
theorem test_move_urgentPreempts :
    let t := after (.move .ch ⟨0#8, 0#8, 2000#16, 80#8, 1#8⟩) preemption
    t.hub.arbiter.grantOrder = [.cradle, .flap] ∧ t.hub.arbiter.inUse = 90 ∧ (t.hub.record .ring).state = .paused ∧
      t.hub.arbiter.queue = [⟨.ring, .resume, 1000⟩] ∧ verdictOf t = some .ok := by decide

/-- The same state with a budget that no pause can make large enough. -/
theorem test_met_urgentMoveIsQueued :
    let s := { preemption with hub := { preemption.hub with params := { preemption.hub.params with
      flowBudget := 80, demand := ⟨90, 60, 50, 30, 35, 10⟩ } } }
    sound s ∧ s.hub.params.flowBudget +
        ((s.hub.arbiter.grantOrder.filter (fun b => (s.hub.record b).cls = .normal)).map s.hub.params.demand.get).sum <
      s.hub.params.demand.get .flap + s.hub.arbiter.inUse := ⟨sound_of_check (by decide), by decide⟩

/-- The cutter at the head of the queue: the flow fits; over a budget of 90 it does not; with the cutter invalid it fails. -/
theorem test_met_service :
    let s := busy
    let tight := { busy.hub with params := { busy.hub.params with flowBudget := 90 } }
    let lost := { busy.hub with sampler := { busy.hub.sampler with
      sense := busy.hub.sampler.sense.set .cutter ⟨5, 1000, false, .unknown⟩ } }
    (s.hub.motionAgrees ∧ s.hub.valvesAgree) ∧ s.hub.arbiter.queue = [⟨.cutter, .normal, 1000⟩] ∧
      s.hub.recheck .cutter = none ∧ s.hub.params.demand.get .cutter + s.hub.arbiter.inUse ≤ s.hub.params.flowBudget ∧
      tight.params.flowBudget < tight.params.demand.get .cutter + tight.arbiter.inUse ∧ tight.recheck .cutter = none ∧
      lost.recheck .cutter = some .blocked ∧ sound { busy with hub := lost } :=
  ⟨test_met_busyIsSound, by decide, by decide, by decide, by decide, by decide, by decide, sound_of_check (by decide)⟩

/-- The re-check by each of its conditions: own zone, gate, another axis, none. -/
theorem test_met_recheck :
    let waiting := fun h : Hub => h.setRecord .flap { h.record .flap with direction := .extend, target := .to 2000 }
    let gated := (waitingBy .tailgate .ch (withBale .chamber (bale 5 .forming) run)).hub
    ¬ ownZoneAllows (waiting (atTheHighEnd run.hub)) .flap .extend ∧ ownZoneAllows gated .tailgate .extend ∧
      gated.gateHolds .tailgate .extend (.to 2000) = false ∧ gated.recheck .tailgate = some .gate ∧
      refuses (waiting (tailgateRefuses run.hub)) .flap .extend .tailgate ∧
      (waiting (tailgateRefuses run.hub)).recheck .flap = some .blocked ∧ (waiting run.hub).recheck .flap = none := by
  unfold ownZoneAllows refuses; decide

theorem test_met_moveArrivesImmediately :
    let s := flapClaimed
    s.hub.valueFault .flap .extend (targetOf 1008#16) (80#8).toNat (some .normal) = none ∧
      s.hub.targetReached .flap (targetOf 1008#16) = true ∧ s.hub.targetReached .flap (targetOf 1009#16) = false := by decide

/-- R65: an unreferenced ring is never found reached, before the sample after a RESTART_EFFECT too; a referenced one at 712 and 8 is
found at 0 with a tolerance of 8, one at 711 and 9 is not. -/
theorem test_met_ringTargetReached :
    let restarted := after .restartEffect { inMode .setup run with hub := { (inMode .setup run).hub with
      control := { (inMode .setup run).hub.control with restartPending := true } } }
    let at_ := fun p => { run.hub with sampler := { run.hub.sampler with
      sense := run.hub.sampler.sense.set .ring ⟨p, p, true, .number 0⟩ } }
    (restarted.hub.sense .ring).position = 0 ∧ (restarted.hub.sense .ring).valid = true ∧
      restarted.hub.targetReached .ring (.to 0) = false ∧
      [712, 711, 8, 9].map (fun p => (at_ p).targetReached .ring (.to 0)) = [true, false, true, false] := by decide

theorem test_met_moveRetargets :
    let s := busy
    (s.hub.record .tailgate).state = .moving ∧ (s.hub.record .tailgate).holder = some .ch ∧
      s.hub.valueFault .tailgate .extend (targetOf 2500#16) (90#8).toNat (some .normal) = none ∧
      s.hub.targetReached .tailgate (targetOf 2500#16) = false ∧ s.hub.targetKeptOut .tailgate (targetOf 2500#16) = false := by decide

theorem test_met_retargetArrives :
    busy.hub.valueFault .tailgate .extend (targetOf 1008#16) (90#8).toNat (some .normal) = none ∧
      busy.hub.targetReached .tailgate (targetOf 1008#16) = true := by decide

theorem test_move_retargetArrives :
    let t := after (.move .ch ⟨1#8, 0#8, 1008#16, 90#8, 0#8⟩) busy
    (t.hub.record .tailgate).lastEnd = .arrived ∧ (t.hub.record .cutter).state = .moving := by decide

theorem test_met_moveChecksItsRequester :
    5 < (6#8).toNat ∧ 1 < (2#8).toNat ∧ (busy.hub.record .cutter).holder = some .ct ∧
      (busy.hub.record .cutter).state = .waiting ∧ busy.hub.control.mode = .run := by decide

theorem test_met_urgentMotionsAreNotPaused :
    let s := movingBy .flap .ch (.to 2000) .urgent run
    (s.hub.record .flap).state = .moving ∧ (s.hub.record .flap).cls = .urgent ∧
      goes (.move .ct ⟨1#8, 0#8, 2000#16, 80#8, 1#8⟩) s = true := by decide

theorem test_stop_byAnotherRole : ((after (.stop .wr 1#8) busy).hub.record .tailgate).lastEnd = .stoppedOther := by decide

theorem test_allStop_reportsTheAxes : dataOf (after (.allStop .wr) busy) = some [0x2A#8] := by decide

/-! ### Bales -/

theorem test_met_baleStart :
    busy.hub.tracker.chamber = some (bale 22 .binding) ∧ run.hub.tracker.chamber = none ∧
      run.hub.tracker.nextNumber ∉ run.hub.tracker.heldNumbers ∧ run.hub.tracker.log.length ≤ 32 ∧
      run.hub.tracker.heldNumbers.Nodup := by decide

/-- The next number held by a record on the table, by one in the log too, and the first number free behind them. -/
theorem test_met_firstNumber :
    let s := withBale .table (bale 1 .onTable) run
    let t := { s with hub := { s.hub with tracker := { s.hub.tracker with log := [logged 2] } } }
    s.hub.tracker.nextNumber ∈ s.hub.tracker.heldNumbers ∧ s.hub.tracker.numbersAgree ∧ s.hub.tracker.logBounded ∧
      t.hub.tracker.numbersAgree ∧ t.hub.tracker.logBounded ∧
      (after (.baleStart .ch) t).hub.tracker.chamber.map (·.number) = some 3 ∧
      (after (.baleDeclare .ct 0#8 0#8) (inMode .setup t)).hub.tracker.chamber.map (·.number) = some 3 := by
  unfold Tracker.numbersAgree Tracker.logBounded; decide

/-- R101 at its edge: after 65535 comes 1, and a number still held is passed over. -/
theorem test_baleStart_numberGoesAround :
    let s := withBale .table (bale 1 .onTable) run
    let t := after (.baleStart .ch) { s with hub := { s.hub with tracker := { s.hub.tracker with nextNumber := 65535 } } }
    let u := after (.baleStart .ch) s
    t.hub.tracker.chamber.map (·.number) = some 65535 ∧ t.hub.tracker.nextNumber = 1 ∧
      u.hub.tracker.chamber.map (·.number) = some 2 := by decide

theorem test_met_binding :
    let s := withBale .chamber (bale 22 .forming) run
    s.hub.tracker.chamber = some (bale 22 .forming) ∧ (bale 22 .forming).stage = .forming ∧
      (bale 22 .binding).stage ≠ .forming ∧ (bale 22 .binding).net = some ⟨40, 10⟩ ∧
      run.hub.tracker.stageAt .chamber ≠ some .binding ∧ Role.wr ≠ .ch := by decide

theorem test_bindStart_armsTheWatch :
    let t := after (.bindStart .ch) (withBale .chamber (bale 22 .forming) run)
    t.hub.counter.watch = .startWait ∧ t.hub.counter.startTimer = some 500 := by decide

/-- A FORMING bale under a full pre-chamber, with FEED HOLD at this level. -/
def formingUnderFull (hold : Bool) : State :=
  let s := withBale .chamber (bale 22 .forming) run
  { s with hub := { s.hub with inputs := { s.hub.inputs with prechamberFull := true },
                               tracker := { s.hub.tracker with feedHold := hold } } }

theorem test_met_bindStartAssertsFeedHold :
    (formingUnderFull false).hub.tracker.chamber = some (bale 22 .forming) ∧
      (formingUnderFull false).hub.inputs.prechamberFull = true ∧ (formingUnderFull false).hub.tracker.feedHold = false ∧
      (formingUnderFull true).hub.tracker.feedHold = true ∧ run.hub.inputs.prechamberFull = false := by decide

/-- R117: the assertion at BIND_START is posted to CH and CT, and an output asserted already posts nothing. -/
theorem test_bindStart_postsFeedHold :
    [false, true].map (fun hold => let n := (after (.bindStart .ch) (formingUnderFull hold)).hub.notices
      (n.ch.pending, n.wr.pending, n.ct.pending)) =
        [(Notice.baleMoved.bit ||| Notice.feedHold.bit, Notice.baleMoved.bit, Notice.baleMoved.bit ||| Notice.feedHold.bit),
          (Notice.baleMoved.bit, Notice.baleMoved.bit, Notice.baleMoved.bit)] := by decide

theorem test_bindRetry_keepsThePulses : dataOf (after (.bindRetry .ch) busy) = some [0#8, 22#8, 10#8] := by decide

theorem test_met_wrapStart :
    (withBale .table (bale 21 .onTable) run).hub.tracker.table = some (bale 21 .onTable) ∧ run.hub.tracker.table = none := by decide

theorem test_wrapStart_copiesTheTarget : dataOf (after (.wrapStart .wr) (withBale .table (bale 21 .onTable) run)) =
    some [0#8, 21#8, 24#8] := by decide

theorem test_filmReset_badDispenser : verdictOf (after (.filmReset .wr 2#8) run) = some .badValue := by decide

theorem test_met_baleNote : 200 < (201#16).toNat ∧ (200#16).toNat ≤ 200 ∧ 4000 < (4001#16).toNat ∧ (4000#16).toNat ≤ 4000 := by decide

theorem test_baleNote_weight :
    (after (.baleNote .wr 4000#16) busy).hub.tracker.table.map (·.weight) = some (some 4000) := by decide

theorem test_met_baleDeclare :
    let s := inMode .setup run
    s.hub.control.mode = .setup ∧ Place.chamber.admits .bound = true ∧ Place.chamber.admits .carried = false ∧
      s.hub.tracker.at .chamber = none ∧ Stage.bound ≠ .dropped ∧ Stage.bound ≠ .binding ∧ Stage.bound ≠ .wrapping ∧
      (withBale .chamber (bale 5 .bound) s).hub.tracker.at .chamber = some (bale 5 .bound) ∧ 2 < (3#8).toNat ∧ 8 < (9#8).toNat := by
  decide

/-- In SETUP with a bale on the table, and with one CARRIED at the cradle that has waited 90 s before. -/
def setupWithTable : State := inMode .setup (withBale .table (bale 21 .onTable) run)

def setupWithCradle : State := inMode .setup (withBale .cradle { bale 22 .carried with cradleWait := some 90 } run)

theorem test_met_declarationsStartTheStopwatch :
    0 < setupWithTable.hub.params.tableLateLimit ∧ setupWithTable.hub.control.mode = .setup ∧
      Place.cradle.admits .carried = true ∧ setupWithTable.hub.tracker.at .cradle = none ∧
      setupWithTable.hub.tracker.table ≠ none ∧ setupWithTable.hub.tracker.stopwatch = none ∧
      Place.table.admits .onTable = true ∧ setupWithCradle.hub.tracker.at .table = none ∧
      setupWithCradle.hub.tracker.stageAt .cradle = some .carried ∧
      setupWithCradle.hub.params.tableLateLimit ≤ 90 ∧ (bale 22 .carried).flags.tableLate = false := by decide

/-- R115 and R116: a CARRIED bale declared beside an occupied table waits from 0, and a table bale declared beside one that has waited
to the limit makes it TABLE_LATE at once. -/
theorem test_baleDeclare_startsTheStopwatch :
    let t := after (.baleDeclare .ct 1#8 4#8) setupWithTable
    let u := after (.baleDeclare .ct 2#8 5#8) setupWithCradle
    (t.hub.tracker.stopwatch, t.hub.tracker.cradle.map (·.cradleWait)) = (some ⟨90, 0⟩, some (some 0)) ∧
      (u.hub.tracker.stopwatch, u.hub.tracker.cradle.map (·.flags.tableLate)) = (some ⟨90, 0⟩, some true) := by decide

theorem test_baleDeclare_isRecovered :
    (after (.baleDeclare .ct 0#8 2#8) (inMode .setup run)).hub.tracker.chamber.map (·.flags.recovered) = some true := by decide

theorem test_baleRead_listsTheTableFirst :
    (dataOf (after (.baleRead .ct) busy)).map (List.take 5) = some [2#8, 0#8, 21#8, 2#8, 6#8] := by decide

theorem test_logRead_givesFourOldest :
    (dataOf (after (.logRead .ct) (withLog 5 run))).map (fun l => (l.take 3, l.length)) = some ([5#8, 3#8, 232#8], 57) := by decide

/-- R123 at its edges: 1 to 4, and at most as many as the log holds. -/
theorem test_logDrop_limits :
    [0, 1, 3, 4, 5].map (fun n => verdictOf (after (.logDrop .ct (BitVec.ofNat 8 n)) (withLog 3 run))) =
      [some .badValue, some .ok, some .ok, some .badValue, some .badValue] := by decide

/-- An EJECTING bale that reaches the empty cradle. -/
theorem test_cradleLoadActive_takesTheBale :
    let t := after .cradleLoadActive (withBale .chamber (bale 22 .ejecting) run)
    t.hub.tracker.chamber = none ∧ t.hub.tracker.stageAt .cradle = some .carried := by decide

theorem test_met_theChamberBaleIsCarried :
    let s := withBale .chamber (bale 22 .ejecting) run
    let t := withBale .table (bale 21 .wrapping) s
    s.hub.tracker.chamber = some (bale 22 .ejecting) ∧ s.hub.tracker.cradle = none ∧ s.hub.tracker.table = none ∧
      t.hub.tracker.chamber = some (bale 22 .ejecting) ∧ t.hub.tracker.cradle = none ∧ t.hub.tracker.table ≠ none ∧
      t.hub.tracker.stopwatch = none := by decide

theorem test_cradleLoadInactive_startsTheTransit :
    (after .cradleLoadInactive (withBale .cradle (bale 22 .carried) run)).hub.tracker.transit = some 300 := by decide

theorem test_met_tableLoadBecomesActive :
    let s := withBale .cradle (bale 22 .carried) run
    s.hub.tracker.cradle = some (bale 22 .carried) ∧ (bale 22 .carried).stage = .carried ∧ s.hub.tracker.table = none ∧
      run.hub.tracker.stageAt .cradle ≠ some .carried ∧ busy.hub.tracker.table ≠ none := by decide

theorem test_tableLoadActive_putsItOnTheTable :
    (after .tableLoadActive (withBale .cradle (bale 22 .carried) run)).hub.tracker.stageAt .table = some .onTable := by decide

theorem test_met_tableLoadBecomesInactive :
    busy.hub.tracker.stagesAgree ∧ busy.hub.queueAgrees ∧ (busy.hub.record .ring).state = .moving ∧
      busy.hub.tracker.table = some (bale 21 .wrapping) ∧ (withLog 23 busy).hub.tracker.log.length = 23 ∧
      32 ≤ (withLog 32 busy).hub.tracker.log.length :=
  ⟨test_met_invariants.2.2.2.2.1, test_met_busyIsSound.1.2.1, by decide⟩

theorem test_met_theTableBaleIsLogged :
    busy.hub.queueAgrees ∧ Place.table.admits .wrapping = true ∧ Place.table.admits .dropping = true ∧
      (withBale .table (bale 21 .dropping) busy).hub.tracker.table = some (bale 21 .dropping) :=
  ⟨test_met_busyIsSound.1.2.1, by decide⟩

/-- An unplanned removal stops the ring and logs the record in its stage (R79, R114). -/
theorem test_tableLoadInactive_unplanned :
    let t := after .tableLoadInactive busy
    (t.hub.record .ring).lastEnd = .sensor ∧ (t.hub.tracker.log.map (fun b => (b.number, b.flags.unplanned))) =
      [(1000, false), (21, true)] := by decide

/-- A full log loses its oldest record, and the new one says so (R121). -/
theorem test_tableLoadInactive_fullLog :
    let t := after .tableLoadInactive (withLog 32 (withBale .table (bale 21 .dropping) run))
    t.hub.tracker.log.length = 32 ∧ t.hub.tracker.log.getLast?.map (·.flags.logDisplaced) = some true := by decide

theorem test_met_transitTimer :
    let s := withBale .cradle (bale 22 .carried) (withLog 31 run)
    let t := { s with hub := { s.hub with tracker := { s.hub.tracker with transit := some 0 } } }
    t.hub.tracker.transit = some 0 ∧ t.hub.tracker.cradle = some (bale 22 .carried) ∧ t.hub.tracker.log.length = 31 ∧
      (withLog 23 t).hub.tracker.log.length = 23 ∧ (withLog 32 t).hub.tracker.log.length = 32 := by decide

/-- A bale that waits on the cradle with 90 s counted and a limit of 90. -/
def waitingOnTheCradle : State :=
  let s := withBale .cradle { bale 22 .carried with cradleWait := some 90 } run
  { s with hub := { s.hub with tracker := { s.hub.tracker with stopwatch := some ⟨90, 0⟩ } } }

theorem test_met_stopwatchReachesItsLimit :
    waitingOnTheCradle.hub.tracker.stopwatch = some ⟨90, 0⟩ ∧
      waitingOnTheCradle.hub.tracker.cradle = some { bale 22 .carried with cradleWait := some 90 } ∧
      (bale 22 .carried).flags.tableLate = false := by decide

/-- The same bale one second earlier, its second full but for 10 ms, and with the flag it gains then. -/
def aboutToBeLate : State :=
  { waitingOnTheCradle with hub := { waitingOnTheCradle.hub with tracker := { waitingOnTheCradle.hub.tracker with
      cradle := some { bale 22 .carried with cradleWait := some 89 }, stopwatch := some ⟨90, 99⟩ } } }

theorem test_met_stopwatchSeconds :
    aboutToBeLate.hub.dueCommands = [] ∧ waitingOnTheCradle.hub.dueCommands = [] ∧ (89 : Nat) + 1 = 90 ∧
      (after .tableLate waitingOnTheCradle).hub.tracker.cradle.map (·.flags.tableLate) = some true := by decide

/-- R116: the count that reaches the limit and the flag are one event. -/
theorem test_tenMilliseconds_tableLate :
    ∃ t, step aboutToBeLate = .next t ∧ t.hub.tracker.cradle.map (fun b => (b.cradleWait, b.flags.tableLate)) =
      some (some 90, true) ∧ (t.hub.notices.ct.pending &&& Notice.tableLate.bit) ≠ 0#17 := ⟨_, rfl, by decide⟩

theorem test_tableLate_setsTheFlag :
    (after .tableLate waitingOnTheCradle).hub.tracker.cradle.map (·.flags.tableLate) = some true := by decide

theorem test_transitTimeout_logsTheBale :
    let s := withBale .cradle (bale 22 .carried) run
    (after .transitTimeout { s with hub := { s.hub with tracker := { s.hub.tracker with transit := some 0 } } }).hub.tracker.log.map
      (fun b => (b.stage, b.flags.unplanned)) = [(.carried, true)] := by decide

/-- The output asserted already when the edge is taken, and deasserted with the chamber empty. -/
theorem test_met_prechamberFullEdge :
    let held := after (.prechamberFullEdge true) busy
    held.hub.tracker.feedHold = true ∧ held.hub.tracker.stageAt .chamber = some .binding ∧
      busy.hub.tracker.feedHold = false ∧ run.hub.tracker.stageAt .chamber = none ∧
      (after (.prechamberFullEdge true) held).hub.notices = held.hub.notices := by decide

theorem test_prechamberFullEdge_assertsFeedHold :
    let t := after (.prechamberFullEdge true) busy
    t.hub.tracker.feedHold = true ∧ t.hub.notices.ch.pending = Notice.feedHold.bit ∧ t.hub.notices.wr.pending = 0#17 := by decide

/-! ### Net and film -/

/-- A binding bale one pulse short of its target, the feed active. -/
def almostBound : State :=
  let s := withBale .chamber { bale 22 .binding with net := some ⟨40, 39⟩ } run
  { s with hub := { s.hub with inputs := { s.hub.inputs with netFeed := true },
                               counter := { s.hub.counter with watch := .feeding } } }

theorem test_met_netPulses :
    almostBound.hub.tracker.chamber = some { bale 22 .binding with net := some ⟨40, 39⟩ } ∧
      almostBound.hub.inputs.netFeed = true ∧ 39 + 1 = 40 ∧ busy.hub.inputs.netFeed = false := by decide

theorem test_netPulse_reachesTheTarget :
    let t := after .netPulse almostBound
    t.hub.tracker.stageAt .chamber = some .bound ∧ t.hub.counter.watch = .off := by decide

theorem test_netFeedEdge_startsTheGapTimer :
    let t := after (.netFeedEdge false) almostBound
    t.hub.counter.watch = .gapWait ∧ t.hub.counter.gapTimer.isSome = true := by decide

theorem test_met_netTimers :
    let s := { almostBound with hub := { almostBound.hub with counter := { almostBound.hub.counter with startTimer := some 0, gapTimer := some 0 } } }
    s.hub.tracker.chamber.isSome = true ∧ s.hub.counter.startTimer = some 0 ∧ s.hub.counter.gapTimer = some 0 := by decide

theorem test_netStartTimeout_halts :
    let s := { busy with hub := { busy.hub with counter := { busy.hub.counter with watch := .startWait, startTimer := some 0 } } }
    let t := after .netStartTimeout s
    t.hub.counter.watch = .halted ∧ t.hub.tracker.chamber.map (·.flags.netMiss) = some true := by decide

theorem test_netGapTimeout_halts :
    let s := { busy with hub := { busy.hub with counter := { busy.hub.counter with watch := .gapWait, gapTimer := some 0 } } }
    let t := after .netGapTimeout s
    t.hub.counter.watch = .halted ∧ t.hub.tracker.chamber.map (·.flags.netShort) = some true := by decide

theorem test_met_revolutions :
    busy.hub.tracker.table = some (bale 21 .wrapping) ∧ (bale 21 .wrapping).film = some ⟨24, 4, []⟩ ∧ 4 + 2 < 24 ∧ 24 ≤ 22 + 2 := by
  decide

theorem test_met_filmBreak :
    busy.hub.counter.dispenser .a = .ready ∧ busy.hub.counter.readyCount = 2 ∧ run.hub.counter.readyCount = 2 ∧
      ({ busy.hub.counter with dispenserA := .broken } : LayerCounter).dispenser .a = .broken ∧
      busy.hub.tracker.stageAt .table = some .wrapping ∧ run.hub.tracker.stageAt .table ≠ some .wrapping := by decide

/-- One dispenser already broken. -/
def halfBroken : State := { busy with hub := { busy.hub with counter := { busy.hub.counter with dispenserA := .broken } } }

theorem test_met_filmOut :
    sound halfBroken ∧ halfBroken.hub.counter.readyCount = 1 ∧ halfBroken.hub.counter.dispenser .b = .ready ∧
      (halfBroken.hub.record .ring).state = .moving ∧ (halfBroken.hub.record .ring).target = .run :=
  ⟨sound_of_check (by decide), by decide⟩

/-- 12.3, events 2 and 4: the break is captured, and the second one stops the ring (R136, R137). -/
theorem test_filmBreakEdge_captureAndFilmOut :
    (after (.filmBreakEdge .a true) busy).hub.tracker.table.map (·.film) = some (some ⟨24, 4, [⟨.a, 4, 170⟩]⟩) ∧
      ((after (.filmBreakEdge .b true) halfBroken).hub.record .ring).lastEnd = .filmOut := by decide

/-! ### Notices, parameters, modes -/

theorem test_noticeMask_raisesTheLine :
    let t := afterAll [.prechamberFullEdge true, .noticeMask .ch 0x008000#24] busy
    t.hub.notices.ch.line = true ∧ t.hub.notices.ct.line = false := by decide

/-- R147 and R148 at their edge: kind 16 is a kind, 17 is none. -/
theorem test_noticeClear_kindLimit :
    verdictOf (after (.noticeClear .ch 0x010000#24) busy) = some .ok ∧
      verdictOf (after (.noticeClear .ch 0x020000#24) busy) = some .badValue := by decide

theorem test_noticeRead_own : dataOf (after (.noticeRead .ct) (after (.prechamberFullEdge true) busy)) =
    some [0#8, 0x80#8, 0#8, 0#8, 0#8, 0#8] := by decide

/-- The parameter table of the statements: an index past it, a SETUP row, a read-only row, a row of any mode, and two rows that a
role beside CT may write. -/
theorem test_met_paramSet :
    [36, 0, 35, 27, 29, 32].map (fun i => (paramRow i).map (fun x => (x.writers, x.setupOnly, x.least, x.greatest))) =
      [none, some ([.ct], true, 0, 250), some ([], false, 1, 65535), some ([.ct], false, 1, 120),
        some ([.ch, .ct], false, 4, 255), some ([.wr, .ct], false, 2, 60)] := by decide

theorem test_paramGet_default : dataOf (after (.paramGet .ch 26#8) State.reset) = some [26#8, 0#8, 0#8, 0#8, 120#8] := by decide

/-- R151 and R154: CLAIM_LEASE is 1 to 120 s, written by CT in any mode; CH may not. -/
theorem test_paramSet_claimLease :
    [0, 1, 120, 121].map (fun v => verdictOf (after (.paramSet .ct 27#8 (BitVec.ofNat 16 v)) run)) =
        [some .badValue, some .ok, some .ok, some .badValue] ∧
      verdictOf (after (.paramSet .ch 27#8 5#16) run) = some .notAllowed := by decide

/-- The map with the cradle's boundaries out of order. -/
def badMap : State :=
  let s := inMode .setup run
  { s with hub := { s.hub with map := s.hub.map.set .cradle { openMap 500 with bounds := ⟨300, 600, 1200, 1200, 2400, 3000, 3700⟩ } } }

theorem test_met_modeSet :
    (∀ a, ((run.hub.map.get a).bounds.toList.Pairwise (· < ·) ∧
      ∀ v, v ∈ (run.hub.map.get a).bounds.toList → 1 ≤ v ∧ v ≤ (if a = .ring then 719 else 4094))) ∧
      ¬ (badMap.hub.map.get .cradle).bounds.toList.Pairwise (· < ·) ∧ badMap.hub.control.mode = .setup ∧
      badMap.hub.control.restartPending = false ∧ 1 < (2#8).toNat ∧
      (inMode .stopped run).hub.control.mode = .stopped ∧ run.hub.control.mode = .run :=
  ⟨fun a => by cases a <;> decide, by decide⟩

/-- R40's example on another axis: the check fails on the cradle, whose B3 equals its B4. -/
theorem test_modeSet_mapInvalid : dataOf (after (.modeSet .ct 1#8) badMap) = some [0#8, 2#8] := by decide

theorem test_modeSet_leavesRun :
    let t := after (.modeSet .ct 0#8) busy
    t.hub.control.mode = .setup ∧ t.hub.arbiter = ⟨0, [], []⟩ ∧ (t.hub.record .ring).lastEnd = .mode := by decide

theorem test_met_stopChain :
    sound busy ∧ busy.hub.control.mode = .run ∧ busy.hub.control.restartPending = false ∧
      (inMode .setup run).hub.control.mode ≠ .run := ⟨test_met_busyIsSound, by decide⟩

/-- 12.6: the chain opens, closes, and CLEAR_STOP leads to SETUP (R160, R162). -/
theorem test_stopInput_andClearStop :
    let t := after .stopInputActive busy
    t.hub.control.mode = .stopped ∧ t.hub.control.stopLatch = true ∧ verdictOf (after (.clearStop .ct) t) = some .wrongMode ∧
      (afterAll [.stopInputInactive, .clearStop .ct] t).hub.control.mode = .setup := by decide

/-- A restart asked for in SETUP and waiting to take effect, with bale 22 BINDING. -/
def restartAsked : State := after (.restart .ct) (inMode .setup (withBale .chamber (bale 22 .binding) run))

theorem test_met_restartTakesEffect :
    restartAsked.hub.control.restartPending = true ∧ restartAsked.hub.handler = .free ∧ restartAsked.hub.heldOrder = [] ∧
      ({ restartAsked.hub.ports.ct with sending := some [⟨true, 4#8⟩] } : Port).sending ≠ none := by decide

/-- The same with the reply under way and a frame of port B held, and with the frame of port C still in hand. -/
theorem test_met_restartWithOtherFrames :
    let sendingC := restartAsked.hub.setPort .ct (Port.mk .waitMark true (some [⟨true, 4#8⟩]))
    let s := { restartAsked with hub := sendingC.setPort .wr (Port.mk (.holding ⟨4#8, [0x44#8, 0#8, 0xB7#8]⟩) false none) }
    let t := { s.hub with heldOrder := [.wr] }
    t.control.restartPending = true ∧ t.ports.ct.sending ≠ none ∧ t.heldOrder = [.wr] ∧
      (after (.replySent .ct) { s with hub := t }).hub.handler = .handed .wr ⟨4#8, [0x44#8, 0#8, 0xB7#8]⟩ ∧
      ({ t with handler := .taking .ct [] [] false } : Hub).handler = .taking .ct [] [] false := by decide

/-- R17 and R164: the encoder is UNREFERENCED, and an unreferenced ring reads at position 0, before the next sample too. -/
theorem test_restartEffect_ringPosition :
    (restartAsked.hub.sense .ring).position = 170 ∧ ((after .restartEffect restartAsked).hub.sense .ring).position = 0 := by decide

theorem test_restartEffect_resets :
    let t := after .restartEffect restartAsked
    t.hub.control.lastReset = .restart ∧ t.hub.counter.watch = .halted ∧ t.hub.sampler.ringReferenced = false ∧
      t.hub.params = params := by decide

theorem test_status_reports :
    dataOf (after (.status .wr) busy) = some [1#8, 0#8, 0#8, 1#8, 0#8, 90#8, 0#8, 0#8, 0#8, 0#8] := by decide

/-! ### Ports and frames -/

/-- Port A one character short of the frame of the example. -/
def almostReceived : State :=
  { run with hub := run.hub.setPort .ch ⟨.collecting 4#8 [0x11#8, 0x01#8, 0x01#8], false, none⟩ }

theorem test_met_charactersAreTaken :
    (almostReceived.hub.ports.get .ch).receiver = .collecting 4#8 [0x11#8, 0x01#8, 0x01#8] ∧ 3 + 1 = (4#8).toNat ∧
      3 + 1 ≠ (5#8).toNat ∧ almostReceived.hub.handler = .free ∧ (almostReceived.hub.ports.get .ch).replyPending = false ∧
      almostReceived.hub.heldOrder = [] ∧ (run.hub.ports.get .ch).receiver = .waitMark := by decide

theorem test_met_framesAreHeld :
    let s := { almostReceived with hub := { almostReceived.hub with handler := .taking .wr [] [] false } }
    s.hub.handler ≠ .free ∧ (after (.characterReceive .ch 0xE8#8 false true) s).hub.heldOrder = [.ch] := by decide

/-- A frame complete on port A while port B's waits, held, for its port's reply. -/
theorem test_met_framesAreHandedOverInOrder :
    let held : Port := ⟨.holding ⟨2#8, [1#8, 0xFC#8]⟩, true, some [⟨true, 4#8⟩]⟩
    let s := { almostReceived with hub := { almostReceived.hub.setPort .wr held with heldOrder := [.wr] } }
    s.hub.handler = .free ∧ (s.hub.ports.get .wr).replyPending = true ∧ (s.hub.ports.get .ch).replyPending = false ∧
      (after (.characterReceive .ch 0xE8#8 false true) s).hub.heldOrder = [.wr] ∧
      (after (.replySent .wr) s).hub.handler = .handed .wr ⟨2#8, [1#8, 0xFC#8]⟩ ∧ (after (.replySent .wr) s).hub.heldOrder = [] := by
  decide

/-- R167 at its edges: counts 2 and 254 begin a frame, 1 and 255 do not. -/
theorem test_characterReceive_countLimits :
    [1, 2, 254, 255].map (fun n => (after (.characterReceive .wr (BitVec.ofNat 8 n) true true) run).hub.ports.wr.receiver) =
      [.waitMark, .collecting 2#8 [], .collecting 254#8 [], .waitMark] := by decide

/-- A state whose handler holds this frame of port A. -/
def handed (f : Frame) : State :=
  { run with hub := { run.hub.setPort .ch ⟨.waitMark, true, none⟩ with handler := .handed .ch f } }

theorem test_met_framesAreTaken :
    let good : Frame := ⟨4#8, [0x11#8, 0x01#8, 0x01#8, 0xE8#8]⟩
    let bad : Frame := ⟨4#8, [0x11#8, 0x01#8, 0x01#8, 0xE9#8]⟩
    charSum (good.count :: good.chars) = 0xFF#8 ∧ charSum (bad.count :: bad.chars) ≠ 0xFF#8 ∧
      good.items = [⟨0x11#8, [1#8], false⟩] ∧ decodeItem .ch 0x11#8 [1#8] = some (.claim .ch 1#8) ∧
      (handed good).hub.handler = .handed .ch good ∧ (handed good).hub.heldOrder = [] ∧
      (handed bad).hub.handler = .handed .ch bad := by decide

theorem test_met_itemOfTheFrame : ∃ g, itemOf (.claim .ch 1#8) = some (0x11#8, g) := ⟨_, rfl⟩

/-- A frame of CLAIM, MOVE with a bad class, STATUS: the claim stands, the MOVE is refused and the STATUS skipped (R172). -/
theorem test_frameHandover_skipsAfterARefusal :
    let f : Frame := ⟨14#8, [0x11#8, 1#8, 1#8, 0x15#8, 6#8, 1#8, 0#8, 7#8, 208#8, 80#8, 9#8, 0x44#8, 0#8, 0x4E#8]⟩
    let t := after (.frameHandover .ch 4) (handed f)
    t.hub.ports.ch.sending = some
        (marked [14#8, 0x11#8, 0#8, 4#8, 1#8, 0#8, 11#8, 184#8, 0x15#8, 10#8, 0#8, 0x44#8, 13#8, 0#8, 168#8]) ∧
      (t.hub.record .tailgate).holder = some .ch := by decide

theorem test_met_skipped :
    let s := { run with hub := { run.hub with
      handler := .taking .ch [⟨0x44#8, [], false⟩, ⟨0x28#8, [], false⟩] [⟨0x11#8, ⟨.busy, []⟩⟩] true } }
    s.hub.handler = .taking .ch [⟨0x44#8, [], false⟩, ⟨0x28#8, [], false⟩] [⟨0x11#8, ⟨.busy, []⟩⟩] true := by decide

/-- A handler that takes these items of port A. -/
def takingItems (items : List RawItem) : State := { run with hub := { run.hub with handler := .taking .ch items [] false } }

set_option maxRecDepth 4000 in
theorem test_met_anItemAmongOthers :
    let x : RawItem := ⟨0x11#8, [1#8], false⟩
    let bad : RawItem := ⟨0x11#8, [], false⟩
    (takingItems [x, bad]).hub.handler = .taking .ch [x, bad] [] false ∧ decodeItem .ch 0x11#8 [] = none ∧
      decodeItem .ch 0x11#8 [1#8] = some (.claim .ch 1#8) ∧ replyFits 0x11#8 [] 1 = true ∧
      replyFits 0x29#8 [⟨0x29#8, ⟨.ok, List.replicate 180 0#8⟩⟩] 1 = false ∧ (takingItems [bad]).hub.heldOrder = [] ∧
      (after (.frameHandover .ch 1) (takingItems [bad, x])).hub.handler =
        .taking .ch [x] [⟨0x11#8, ⟨.badRequest, []⟩⟩] true := by decide

theorem test_met_theLastItemEndsTheFrame :
    (takingItems [⟨0x11#8, [1#8], false⟩]).hub.handler = .taking .ch [⟨0x11#8, [1#8], false⟩] [] false ∧
      ({ run.hub with handler := .taking .ch [⟨0x44#8, [], false⟩] [⟨0x11#8, ⟨.busy, []⟩⟩] true } : Hub).handler =
        .taking .ch [⟨0x44#8, [], false⟩] [⟨0x11#8, ⟨.busy, []⟩⟩] true := ⟨rfl, rfl⟩

theorem test_met_theSpaceTestIsOnRequests :
    ([⟨0x29#8, ⟨.ok, []⟩⟩, ⟨0x44#8, ⟨.badRequest, []⟩⟩] : List Entry).map (·.request) =
      ([⟨0x29#8, ⟨.ok, [0#8]⟩⟩, ⟨0x44#8, ⟨.ok, [1#8, 2#8]⟩⟩] : List Entry).map (·.request) := rfl

set_option maxRecDepth 4000 in
/-- R173: of two LOG_READ items the second is SKIPPED, on an empty log as on a full one. -/
theorem test_frameHandover_twoLogReads :
    [0, 4].map (fun n => verdictOf (after (.frameHandover .ct 2) { withLog n run with
      hub := { (withLog n run).hub with handler := .taking .ct [⟨0x29#8, [], false⟩, ⟨0x29#8, [], false⟩] [] false } })) =
        [some .skipped, some .skipped] := by decide

theorem test_met_tooManyItems :
    let f : Frame := ⟨11#8, [0x44#8, 0#8, 0x44#8, 0#8, 0x44#8, 0#8, 0x44#8, 0#8, 0x44#8, 0#8, 160#8]⟩
    charSum (f.count :: f.chars) = 0xFF#8 ∧ f.items.length = 5 ∧
      (after (.frameHandover .ch 4) (handed f)).hub.ports.ch.sending = some (marked [4#8, 0#8, 11#8, 0#8, 0xF0#8]) := by decide

theorem test_met_repliesEnd :
    let s := { run with hub := run.hub.setPort .wr ⟨.waitMark, true, some [⟨true, 4#8⟩]⟩ }
    (s.hub.ports.get .wr).sending = some [⟨true, 4#8⟩] ∧ s.hub.heldOrder = [] ∧
      ¬ (Role.wr = .ct ∧ s.hub.control.restartPending = true) := by decide

theorem test_replySent_clearsThePort :
    (after (.replySent .wr) { run with hub := run.hub.setPort .wr ⟨.waitMark, true, some [⟨true, 4#8⟩]⟩ }).hub.ports.wr =
      ⟨.waitMark, false, none⟩ := by decide

end Sys2Proof.Tests
end

/-! ## Axes and position sensing

What every command keeps is gone through once, in two layers: `ItemInvariant` for the ports, the handler and the frames, and
`MotionInvariant` for the claim table and the flow pool. The statements on sampling, time, power-on and the reads follow. -/

namespace Sys2Proof.Machine

/-! ### What holds through every command

An invariant is checked item by item and event by event; the ports, the handler and the frames in hand are gone through here,
once for every invariant. -/

/-- The meaning of a command that is neither an item nor an event of the station ports. -/
def eventOf : Instr → Option (Hub → Hub)
  | .powerOn levels => some fun _ => powerOnHub levels
  | .sample volts => some fun h => h.sample volts
  | .ringCount => some Hub.ringCount
  | .ringIndexCount => some Hub.ringIndexCount
  | .inclinometerEdge rising elapsed => some fun h => { h with sampler := h.sampler.inclinometerEdge rising elapsed }
  | .inclinometerTimeout => some fun h => { h with sampler := h.sampler.edgeTimeout }
  | .leaseExpiry a => some fun h => h.leaseExpiry a
  | .waitTimeout a => some fun h => h.waitTimeout a
  | .filmBreakEdge d active => some fun h => h.filmBreakEdge d active
  | .netPulse => some Hub.netPulse
  | .netFeedEdge active => some fun h => h.netFeedEdge active
  | .netStartTimeout => some Hub.netStartTimeout
  | .netGapTimeout => some Hub.netGapTimeout
  | .cradleLoadActive => some Hub.cradleLoadActive
  | .cradleLoadInactive => some Hub.cradleLoadInactive
  | .tableLoadActive => some Hub.tableLoadActive
  | .tableLoadInactive => some Hub.tableLoadInactive
  | .transitTimeout => some Hub.transitTimeout
  | .tableLate => some Hub.tableLate
  | .fieldClockTick => some Hub.fieldClockTick
  | .prechamberFullEdge active => some fun h => h.prechamberFullEdge active
  | .stopInputActive => some Hub.stopInputActive
  | .stopInputInactive => some Hub.stopInputInactive
  | _ => none

/-- An event is taken by its meaning alone. -/
theorem exec_of_eventOf (c : Instr) (f : Hub → Hub) (s : State) (hc : eventOf c = some f) : exec c s = s.event f := by
  cases c <;> simp only [eventOf, Option.some.injEq, reduceCtorEq] at hc <;> (subst hc; rfl)

/-- The part `k` is the part `h` but for the ports, the handler and the entry answered last. -/
abbrev Hub.sameBlocks (k h : Hub) : Prop :=
  { k with ports := h.ports, handler := h.handler, heldOrder := h.heldOrder, lastEntry := h.lastEntry } = h

/-- A property of the part that every item keeps, and what the station ports do to the other blocks. -/
structure ItemInvariant (P : Hub → Prop) : Prop where
  sameBlocks : ∀ {h k : Hub}, P h → k.sameBlocks h → P k
  overrun : ∀ (h : Hub) (r : Role), P h → P (h.post .linkOverrun r)
  restarted : ∀ h : Hub, P h → P h.restarted
  item : ∀ (i : Instr) (code : Byte) (f : Hub → Hub × Answer) (h : Hub), itemOf i = some (code, f) → P h → P (f h).1

section
variable {P : Hub → Prop} (K : ItemInvariant P)
include K

namespace ItemInvariant

theorem handOver {h : Hub} (hp : P h) : P h.handOver :=
  K.sameBlocks hp (congrArg (fun k : Hub => { k with lastEntry := h.lastEntry }) h.handOver_frame)

theorem setPort {h : Hub} (r : Role) (p : Port) (hp : P h) : P (h.setPort r p) := K.sameBlocks hp rfl

theorem receive {h : Hub} (r : Role) (data : Byte) (mark stopHigh : Bool) (hp : P h) :
    P (h.receive r data mark stopHigh) := by
  unfold Hub.receive
  dsimp only
  split
  case h_5 n chars =>
    split
    · exact K.handOver (K.sameBlocks hp rfl)
    · exact K.setPort _ _ hp
  case h_6 => exact K.overrun _ _ hp
  case h_2 | h_7 => exact hp
  all_goals exact K.setPort _ _ hp

theorem takeOne {h : Hub} (r : Role) (x : RawItem) (built : List Entry) (refused : Bool) (later : Nat) (hp : P h) :
    P (h.takeOne r x built refused later).1 := by
  unfold Hub.takeOne
  split
  · exact hp
  · split
    · exact hp
    · split
      · exact hp
      · split
        · rename_i hf; exact K.item _ _ _ _ hf hp
        · exact hp

theorem finishFrame {h : Hub} (r : Role) (es : List Entry) (hp : P h) : P (h.finishFrame r es) :=
  K.handOver (K.sameBlocks hp rfl)

theorem takeItem {h : Hub} (r : Role) (hp : P h) : P (h.takeItem r) := by
  unfold Hub.takeItem
  split
  · split
    · have hx := K.takeOne r ‹RawItem› ‹List Entry› ‹Bool› (List.length ‹List RawItem›) hp
      dsimp only
      split
      · exact K.finishFrame _ _ (K.sameBlocks hx rfl)
      · exact K.sameBlocks hx rfl
    · exact hp
  all_goals exact hp

theorem takeItems (n : Nat) (r : Role) {h : Hub} (hp : P h) : P (Hub.takeItems n r h) := by
  induction n generalizing h with
  | zero => exact hp
  | succ n ih =>
    unfold Hub.takeItems
    split
    · split
      · exact ih (K.takeItem r hp)
      · exact hp
    all_goals exact hp

theorem beginTaking {h : Hub} (r : Role) (f : Frame) (hp : P h) : P (h.beginTaking r f) := by
  unfold Hub.beginTaking
  split
  · exact K.finishFrame _ _ hp
  · split
    · exact K.finishFrame _ _ hp
    · exact K.sameBlocks hp rfl

theorem frameHandover {h : Hub} (r : Role) (n : Nat) (hp : P h) : P (h.frameHandover r n) := by
  have hh := K.handOver hp
  unfold Hub.frameHandover
  dsimp only
  split
  · split
    · exact K.takeItems _ _ (K.beginTaking _ _ hh)
    · exact hh
  · exact K.takeItems _ _ hh
  · exact hh

theorem replySent {h : Hub} (r : Role) (hp : P h) : P (h.replySent r) := by
  unfold Hub.replySent
  split
  · exact hp
  · have he : P (h.endReply r) := K.setPort _ _ hp
    dsimp only
    split
    · exact K.handOver (K.restarted _ he)
    · exact K.handOver he

theorem restartEffect {h : Hub} (hp : P h) : P h.restartEffect := by
  unfold Hub.restartEffect
  split
  · exact K.handOver (K.restarted _ (K.setPort _ _ hp))
  · exact hp

/-- A command keeps what every item keeps, if it keeps it when it is an event of the blocks. -/
theorem exec {c : Instr} {s t : State} (event : ∀ f h, eventOf c = some f → P h → P (f h)) (hp : P s.hub)
    (ht : exec c s = .next t) : P t.hub := by
  cases hi : itemOf c with
  | some x =>
    obtain ⟨code, f⟩ := x
    rw [exec_of_itemOf c code f s hi] at ht
    cases ht
    exact K.sameBlocks (K.item c code f _ hi hp) rfl
  | none =>
    cases hc : eventOf c with
    | some f =>
      rw [exec_of_eventOf c f s hc] at ht
      cases ht
      exact event f _ hc hp
    | none =>
      cases c <;> simp only [itemOf, eventOf, reduceCtorEq] at hi hc
      case characterReceive r data mark stopHigh => cases ht; exact K.receive _ _ _ _ hp
      case frameHandover r n => cases ht; exact K.frameHandover _ _ hp
      case replySent r => cases ht; exact K.replySent _ hp
      case restartEffect => cases ht; exact K.restartEffect hp

/-- A step keeps what every command and the passing of 10 ms keep. -/
theorem step {s t : State} (event : ∀ c f h, eventOf c = some f → P h → P (f h)) (tick : ∀ h, P h → P h.tick)
    (hp : P s.hub) (ht : step s = .next t) : P t.hub := by
  unfold Machine.step at ht
  split at ht
  · rename_i c rest _
    exact K.exec (s := { s with pending := rest }) (event c) hp ht
  · split at ht
    · exact K.exec (event _) (s := s.nextChoice) hp ht
    · cases ht; exact tick _ hp

end ItemInvariant
end

end Sys2Proof.Machine

namespace Sys2Proof.Machine

/-! ### The claim table, the flow pool and the mode as one part

What the ends, grants and claims of motions act on. A command that leaves this part alone keeps every property of it; the others
are gone through once, in `MotionInvariant`. -/

/-- The claim table and the flow pool, with the parameters they stand on, the mode, and whether the pins follow them yet. -/
structure MotionPart where
  claims : ClaimTable
  arbiter : Arbiter
  demand : PerAxis Nat
  flowBudget : Nat
  mode : Mode
  /-- a sample has been taken since power-on (R183) -/
  sampled : Bool

/-- The motion part of the hub. -/
def Hub.motionPart (h : Hub) : MotionPart :=
  ⟨h.claims, h.arbiter, h.params.demand, h.params.flowBudget, h.control.mode, h.sampler.sampled⟩

@[simp] theorem Hub.postTo_motionPart (h : Hub) (n : Notice) (l : List Role) :
    (h.postTo n l).motionPart = h.motionPart := by simp [Hub.motionPart]

@[simp] theorem Hub.evalFeedHold_motionPart (h : Hub) : h.evalFeedHold.motionPart = h.motionPart := by simp [Hub.motionPart]

@[simp] theorem Hub.advance_motionPart (h : Hub) (p : Place) (b : Bale) (g : Stage) :
    (h.advance p b g).motionPart = h.motionPart := by simp [Hub.motionPart]

@[simp] theorem Hub.createBale_motionPart (h : Hub) (p : Place) (g : Stage) (recovered : Bool) :
    (h.createBale p g recovered).motionPart = h.motionPart := by simp [Hub.motionPart]

@[simp] theorem Hub.logBale_motionPart (h : Hub) (p : Place) (b : Bale) (planned : Bool) :
    (h.logBale p b planned).motionPart = h.motionPart := by simp [Hub.motionPart]

@[simp] theorem Hub.lateCheck_motionPart (h : Hub) : h.lateCheck.motionPart = h.motionPart := by
  have e := congrArg Hub.motionPart h.lateCheck_frame; exact e

@[simp] theorem Hub.stopwatchTick_motionPart (h : Hub) : h.stopwatchTick.motionPart = h.motionPart := by
  have e := congrArg Hub.motionPart h.stopwatchTick_frame; exact e

@[simp] theorem Hub.startStopwatch_motionPart (h : Hub) : h.startStopwatch.motionPart = h.motionPart := by
  unfold Hub.startStopwatch
  repeat' split
  · exact Hub.lateCheck_motionPart _
  all_goals rfl

@[simp] theorem Hub.captureBreak_motionPart (h : Hub) (d : Dispenser) : (h.captureBreak d).motionPart = h.motionPart := by
  unfold Hub.captureBreak
  repeat' split
  all_goals rfl

theorem Hub.setBreakInput_motionPart (h : Hub) (d : Dispenser) (level : Bool) :
    (h.setBreakInput d level).motionPart = h.motionPart := by cases d <;> rfl

/-! ### Items that leave the motion part alone -/

theorem filmResetItem_motionPart (r : Role) (code : Byte) (h : Hub) : (filmResetItem r code h).1.motionPart = h.motionPart := by
  unfold filmResetItem
  repeat' split
  all_goals rfl

theorem baleStartItem_motionPart (r : Role) (h : Hub) : (baleStartItem r h).1.motionPart = h.motionPart := by
  unfold baleStartItem
  repeat' split
  · rfl
  · rfl
  · exact Hub.createBale_motionPart ..

theorem bindStartItem_motionPart (r : Role) (h : Hub) : (bindStartItem r h).1.motionPart = h.motionPart := by
  have binding (b : Bale) : (h.startBinding b).motionPart = h.motionPart :=
    by
    rw [Hub.startBinding, Hub.evalFeedHold_motionPart]
    exact h.advance_motionPart .chamber { b with net := some ⟨h.params.netTarget, 0⟩ } .binding
  unfold bindStartItem
  repeat' split
  case h_1.isTrue => exact binding _
  all_goals rfl

theorem bindRetryItem_motionPart (r : Role) (h : Hub) : (bindRetryItem r h).1.motionPart = h.motionPart := by
  unfold bindRetryItem
  repeat' split
  all_goals rfl

theorem wrapStartItem_motionPart (r : Role) (h : Hub) : (wrapStartItem r h).1.motionPart = h.motionPart := by
  unfold wrapStartItem
  repeat' split
  case h_1.isTrue => exact Hub.advance_motionPart ..
  all_goals rfl

theorem baleNoteItem_motionPart (r : Role) (v : Half) (h : Hub) : (baleNoteItem r v h).1.motionPart = h.motionPart := by
  unfold baleNoteItem
  dsimp only
  repeat' split
  all_goals rfl

theorem Hub.declareBale_motionPart (h : Hub) (p : Place) (g : Stage) : (h.declareBale p g).motionPart = h.motionPart := by
  cases p <;> simp [Hub.declareBale]

theorem baleDeclareItem_motionPart (r : Role) (p g : Byte) (h : Hub) :
    (baleDeclareItem r p g h).1.motionPart = h.motionPart := by
  unfold baleDeclareItem
  repeat' split
  case h_1.isFalse.isFalse => exact Hub.declareBale_motionPart ..
  all_goals rfl

theorem logDropItem_motionPart (r : Role) (n : Byte) (h : Hub) : (logDropItem r n h).1.motionPart = h.motionPart := by
  unfold logDropItem
  dsimp only
  repeat' split
  all_goals rfl

theorem logReadItem_hub (r : Role) (h : Hub) : (logReadItem r h).1 = h := by
  unfold logReadItem; split <;> rfl

theorem zoneGetItem_hub (r : Role) (a z : Byte) (h : Hub) : (zoneGetItem r a z h).1 = h := by
  unfold zoneGetItem
  repeat' split
  all_goals rfl

theorem axisReadItem_hub (r : Role) (a : Byte) (h : Hub) : (axisReadItem r a h).1 = h := by
  unfold axisReadItem; split <;> rfl

theorem zoneSetBoundsItem_motionPart (r : Role) (a : Byte) (b : BoundArgs) (h : Hub) :
    (zoneSetBoundsItem r a b h).1.motionPart = h.motionPart := by
  unfold zoneSetBoundsItem
  repeat' split
  all_goals rfl

theorem zoneSetEntryItem_motionPart (r : Role) (a e k : Byte) (f : AllowArgs) (h : Hub) :
    (zoneSetEntryItem r a e k f h).1.motionPart = h.motionPart := by
  unfold zoneSetEntryItem
  repeat' split
  all_goals rfl

theorem restartItem_motionPart (r : Role) (h : Hub) : (restartItem r h).1.motionPart = h.motionPart := by
  unfold restartItem
  repeat' split
  all_goals rfl

theorem noticeClearItem_motionPart (r : Role) (k : KindBits) (h : Hub) :
    (noticeClearItem r k h).1.motionPart = h.motionPart := by
  unfold noticeClearItem; split <;> rfl

theorem noticeMaskItem_motionPart (r : Role) (k : KindBits) (h : Hub) :
    (noticeMaskItem r k h).1.motionPart = h.motionPart := by
  unfold noticeMaskItem; split <;> rfl

/-! ### Events that leave the motion part alone -/

theorem Hub.netTargetReached_motionPart (h : Hub) (b : Bale) : (h.netTargetReached b).motionPart = h.motionPart := by
  rw [Hub.netTargetReached, Hub.evalFeedHold_motionPart]
  exact (Hub.postTo_motionPart ..).trans (h.advance_motionPart .chamber b .bound)

theorem Hub.netPulse_motionPart (h : Hub) : h.netPulse.motionPart = h.motionPart := by
  unfold Hub.netPulse
  dsimp only
  repeat' split
  · exact Hub.netTargetReached_motionPart ..
  all_goals rfl

theorem Hub.netFault_motionPart (h : Hub) (mark : BaleFlags → BaleFlags) : (h.netFault mark).motionPart = h.motionPart :=
  Hub.postTo_motionPart ..

theorem Hub.netStartTimeout_motionPart (h : Hub) : h.netStartTimeout.motionPart = h.motionPart := by
  unfold Hub.netStartTimeout
  split
  · exact Hub.netFault_motionPart _ _
  · rfl

theorem Hub.netGapTimeout_motionPart (h : Hub) : h.netGapTimeout.motionPart = h.motionPart := by
  unfold Hub.netGapTimeout
  split
  · exact Hub.netFault_motionPart _ _
  · rfl

@[simp] theorem Sampler.edgeTimeout_sampled (m : Sampler) : m.edgeTimeout.sampled = m.sampled := by
  unfold Sampler.edgeTimeout; split <;> rfl

@[simp] theorem Sampler.risingEdge_sampled (m : Sampler) (elapsed : Nat) : (m.risingEdge elapsed).sampled = m.sampled := by
  have measured (high period : Nat) : (m.measure high period).sampled = m.sampled := by
    unfold Sampler.measure; dsimp only; split <;> rfl
  unfold Sampler.risingEdge
  dsimp only
  repeat' split
  case h_1.isFalse => exact measured _ _
  all_goals rfl

theorem Sampler.inclinometerEdge_sampled (m : Sampler) (rising : Bool) (elapsed : Nat) :
    (m.inclinometerEdge rising elapsed).sampled = m.sampled := by
  have late : (if Config.edgeTimerMicros < elapsed then { m.edgeTimeout with period := m.period.spoilt } else m).sampled =
      m.sampled := by split <;> simp
  cases rising
  · exact late
  · exact (Sampler.risingEdge_sampled ..).trans late

theorem Hub.cradleLoadActive_motionPart (h : Hub) : h.cradleLoadActive.motionPart = h.motionPart := by
  unfold Hub.cradleLoadActive
  dsimp only
  repeat' split
  · rw [Hub.evalFeedHold_motionPart, Hub.startStopwatch_motionPart]; exact Hub.postTo_motionPart ..
  all_goals exact Hub.postTo_motionPart ..

theorem Hub.cradleLoadInactive_motionPart (h : Hub) : h.cradleLoadInactive.motionPart = h.motionPart := by
  unfold Hub.cradleLoadInactive
  dsimp only
  split <;> rfl

theorem Hub.tableLoadActive_motionPart (h : Hub) : h.tableLoadActive.motionPart = h.motionPart := by
  unfold Hub.tableLoadActive
  dsimp only
  repeat' split
  all_goals exact Hub.postTo_motionPart ..

theorem Hub.transitTimeout_motionPart (h : Hub) : h.transitTimeout.motionPart = h.motionPart := by
  unfold Hub.transitTimeout
  dsimp only
  repeat' split
  · exact (Hub.postTo_motionPart ..).trans (Hub.logBale_motionPart ..)
  all_goals rfl

theorem Hub.tableLate_motionPart (h : Hub) : h.tableLate.motionPart = h.motionPart := by
  unfold Hub.tableLate
  split
  · exact Hub.lateCheck_motionPart _
  · rfl

/-! ### What a property of the motion part must keep -/

/-- A record may take the values of `x` in place of those of `y` while its axis stands as it does: neither its state, nor its
flow, nor whether it is held changes, a MOVING axis keeps its direction, and an axis without a holder its lease. -/
structure AxisRecord.StandsAs (x y : AxisRecord) : Prop where
  state : x.state = y.state
  flow : x.flow = y.flow
  held : x.holder = none ↔ y.holder = none
  lease : y.holder = none → x.lease = y.lease
  direction : y.state = .moving → x.direction = y.direction

/-- The hub with motions suspended: each paused in turn, and their RESUME entries joined, the oldest grant first (R88). -/
def Hub.suspend (h : Hub) (vs : List Axis) : Hub :=
  vs.reverse.foldl (fun h v => h.enqueue v .resume) (vs.foldl Hub.pause h)

/-- The claim table and the queue with 10 ms taken from every lease and every wait. -/
def Hub.passTime (h : Hub) : Hub :=
  { h with
    claims := { h.claims with records := h.claims.records.tick },
    arbiter := { h.arbiter with queue := h.arbiter.queue.map (fun e => { e with left := e.left - 1 }) } }

/-- A property of the motion part that is kept by each operation on it. -/
structure MotionInvariant (P : Hub → Prop) : Prop where
  same : ∀ {h k : Hub}, P h → k.motionPart = h.motionPart → P k
  restarted : ∀ h : Hub, P h → P h.restarted
  edit : ∀ (h : Hub) (a : Axis) (x : AxisRecord), P h → x.StandsAs (h.record a) → P (h.setRecord a x)
  claim : ∀ (h : Hub) (a : Axis) (r : Role), P h → h.control.mode = .run → (h.record a).state = .idle →
    P (h.setRecord a { h.record a with state := .claimed, holder := some r, lease := h.claimLease })
  endMotion : ∀ (h : Hub) (a : Axis) (c : EndCause), P h → (h.record a).state ≠ .idle → P (h.endMotion a c)
  endEntry : ∀ (h : Hub) (a : Axis) (c : EndCause), P h → h.hasEntry a = true → P ((h.endMotion a c).dequeue a)
  dropClaim : ∀ (h : Hub) (a : Axis) (c : EndCause), P h → P (h.dropClaim a c)
  grant : ∀ (h : Hub) (a : Axis), P h → (h.record a).state = .claimed → h.fits a = true → P (h.grant a)
  grantFromQueue : ∀ (h : Hub) (a : Axis), P h → h.hasEntry a = true → h.fits a = true → P (h.grantFromQueue a)
  queueMotion : ∀ (h : Hub) (a : Axis) (c : MotionClass), P h → (h.record a).state = .claimed → P (h.queueMotion a c)
  preempt : ∀ (h : Hub) (a : Axis), P h → (h.record a).state = .claimed →
    h.demand a + h.arbiter.inUse ≤ h.params.flowBudget + (h.pausable.map h.demand).sum →
    P ((h.suspend (h.victims (h.demand a) h.pausable 0)).grant a)
  setMode : ∀ (h : Hub) (m : Mode), P h → (m ≠ .run → h.control.mode = .run → ∀ a, (h.record a).state = .idle) →
    P (h.setMode m)
  setParams : ∀ (h : Hub) (q : Params), P h → h.control.mode ≠ .run → P { h with params := q }
  passTime : ∀ h : Hub, P h → P h.passTime

/-- A parameter that may be written outside SETUP is none of those the flow pool stands on (R151, R152). -/
theorem Params.write_flow (q : Params) (p : Param) (r : Role) (v : Nat) (h1 : p.access r ≠ .readOnly)
    (h2 : p.access r ≠ .gated) : (q.write p v).demand = q.demand ∧ (q.write p v).flowBudget = q.flowBudget := by
  cases p <;> first | exact ⟨rfl, rfl⟩ | (simp only [Param.access] at h1 h2; split at h1 <;> simp_all)

@[simp] theorem Hub.valueAnswer_hub (h : Hub) (a : Axis) (v : Verdict) : (h.valueAnswer a v).1 = h := by
  unfold Hub.valueAnswer; split <;> rfl

section
variable {P : Hub → Prop} (K : MotionInvariant P)
include K

namespace MotionInvariant

theorem postTo {h : Hub} (n : Notice) (l : List Role) (hp : P h) : P (h.postTo n l) := K.same hp (Hub.postTo_motionPart ..)

/-! #### The service, the ends and the drops -/

theorem service {h : Hub} (hp : P h) : P h.service := by
  refine Hub.service_induction P ?_ ?_ h hp
  · intro k e rest c hk hq _
    exact K.endEntry k e.axis c hk (by simp [Hub.hasEntry, hq])
  · intro k e rest hk hq _ hf
    exact K.grantFromQueue k e.axis hk (by simp [Hub.hasEntry, hq]) hf

theorem dropAndServe {h : Hub} (a : Axis) (c : EndCause) (hp : P h) : P (h.dropAndServe a c) := by
  unfold Hub.dropAndServe
  split
  · exact K.service (K.dropClaim _ _ _ hp)
  · exact K.dropClaim _ _ _ hp

theorem dropAllClaims {h : Hub} (hp : P h) : P h.dropAllClaims :=
  Hub.dropAllClaims_induction P (fun _ _ hk _ => K.dropClaim _ _ _ hk) h hp

/-- Motions ended one after another, each axis being held. -/
theorem endMotions (l : List (Axis × EndCause)) {h : Hub} (hp : P h) (hl : ∀ p ∈ l, (h.record p.1).state ≠ .idle) :
    P (l.foldl (fun h p => h.endMotion p.1 p.2) h) := by
  induction l generalizing h with
  | nil => exact hp
  | cons p l ih =>
    refine ih (K.endMotion _ _ _ hp (hl p List.mem_cons_self)) fun q hq => ?_
    rw [Hub.record_endMotion]
    split
    · simp
    · exact hl q (List.mem_cons_of_mem _ hq)

theorem endMotionsWith (l : List Axis) (c : EndCause) {h : Hub} (hp : P h) (hl : ∀ a ∈ l, (h.record a).state ≠ .idle) :
    P (l.foldl (fun h a => h.endMotion a c) h) := by
  have := K.endMotions (l.map (·, c)) hp (by simpa using hl)
  rwa [List.foldl_map] at this

/-! #### Asking for flow -/

theorem askFlow {h : Hub} (a : Axis) (c : MotionClass) (hp : P h) (hs : (h.record a).state = .claimed) :
    P (h.askFlow a c).1 := by
  have queued := K.queueMotion h a c hp hs
  unfold Hub.askFlow
  cases c with
  | normal =>
    dsimp only
    split
    · rename_i hf; exact K.grant h a hp hs (Bool.and_eq_true_iff.mp hf).2
    · exact queued
  | urgent =>
    dsimp only
    split
    · exact queued
    · split
      · rename_i hf; exact K.grant h a hp hs hf
      · split
        · rename_i hf; exact K.service (K.preempt h a hp hs hf)
        · exact queued

/-! #### Items -/

theorem renewLease {h : Hub} (a : Axis) (hp : P h) (hh : (h.record a).holder ≠ none) : P (h.renewLease a) :=
  K.edit h a _ hp ⟨rfl, rfl, Iff.rfl, fun e => absurd e hh, fun _ => rfl⟩

theorem claimItem {h : Hub} (r : Role) (axis : Byte) (hp : P h) : P (claimItem r axis h).1 := by
  unfold Machine.claimItem
  split
  · exact hp
  · split
    · exact hp
    · split
      · exact hp
      · split
        · exact K.claim _ _ _ hp (by simp_all) (by assumption)
        · split
          · exact K.renewLease _ hp (by simp_all)
          · exact hp

theorem releaseItem {h : Hub} (r : Role) (axis : Byte) (hp : P h) : P (releaseItem r axis h).1 := by
  unfold Machine.releaseItem
  repeat' split
  case h_2.isFalse.isFalse => exact K.dropAndServe _ _ hp
  all_goals exact hp

theorem handoverItem {h : Hub} (r : Role) (axis p : Byte) (hp : P h) : P (handoverItem r axis p h).1 := by
  unfold Machine.handoverItem
  repeat' split
  case h_1.isFalse.isFalse.isFalse.isFalse hh _ _ _ =>
    refine K.postTo _ _ (K.edit _ _ _ hp ⟨rfl, rfl, ?_, fun e => ?_, fun _ => rfl⟩) <;> simp_all
  all_goals exact hp

theorem refreshItem {h : Hub} (r : Role) (axis : Byte) (hp : P h) : P (refreshItem r axis h).1 := by
  unfold Machine.refreshItem
  repeat' split
  case h_2.isFalse.isFalse => exact K.renewLease _ hp (by simp_all)
  all_goals exact hp

theorem retarget {h : Hub} (a : Axis) (d : Direction) (t : Target) (hold : Nat) (cls : Option MotionClass) (hp : P h)
    (hs : (h.record a).state ≠ .idle) (hh : (h.record a).holder ≠ none) : P (h.retarget a d t hold cls).1 := by
  unfold Hub.retarget
  dsimp only
  split
  · rwa [Hub.valueAnswer_hub]
  · split
    · exact hp
    · split
      · exact K.service (K.endMotion _ _ _ (K.edit h a _ hp ⟨rfl, rfl, Iff.rfl, fun _ => rfl, fun _ => rfl⟩) (by simpa))
      · split
        · exact hp
        · exact K.edit h a _ hp ⟨rfl, rfl, Iff.rfl, fun e => absurd e hh, fun _ => rfl⟩

/-- The values of a MOVE written into the record of a CLAIMED axis (R66). -/
theorem withMotion {h : Hub} (a : Axis) (d : Direction) (t : Target) (c : MotionClass) (hold : Nat) (hp : P h)
    (hs : (h.record a).state = .claimed) : P (h.setRecord a ((h.record a).withMotion d t c hold)) :=
  K.edit h a _ hp ⟨rfl, rfl, Iff.rfl, fun _ => rfl, fun e => by simp [hs] at e⟩

theorem takeUp {h : Hub} (a : Axis) (d : Direction) (t : Target) (c : MotionClass) (hold : Nat) (hp : P h)
    (hs : (h.record a).state = .claimed) : P (h.takeUp a d t c hold).1 := by
  have asked := K.askFlow a c (K.withMotion a d t c hold hp hs) (by simpa [AxisRecord.withMotion])
  unfold Hub.takeUp
  split
  · exact hp
  · split
    · exact hp
    · split
      · exact hp
      · split <;> (rename_i he; rw [he] at asked; exact asked)

theorem newMotion {h : Hub} (a : Axis) (d : Direction) (t : Target) (hold : Nat) (cls : Option MotionClass) (hp : P h)
    (hs : (h.record a).state = .claimed) : P (h.newMotion a d t hold cls).1 := by
  unfold Hub.newMotion
  split
  · exact hp
  · split
    · rwa [Hub.valueAnswer_hub]
    · exact hp
    · split
      · exact K.endMotion _ _ _ (K.withMotion _ _ _ _ _ hp hs) (by simp [AxisRecord.withMotion, hs])
      · exact K.takeUp _ _ _ _ _ hp hs

theorem moveItem {h : Hub} (r : Role) (m : MoveArgs) (hp : P h) : P (moveItem r m h).1 := by
  unfold Machine.moveItem
  dsimp only
  repeat' split
  case h_4.isTrue => exact K.retarget _ _ _ _ _ hp (by simp_all) (by simp_all)
  case h_5 => exact K.newMotion _ _ _ _ _ hp (by assumption)
  all_goals exact hp

theorem stopItem {h : Hub} (r : Role) (axis : Byte) (hp : P h) : P (stopItem r axis h).1 := by
  have stopped (a : Axis) (c : EndCause) (hf : (h.record a).state.inFlight = true) : P (h.endMotion a c).service :=
    K.service (K.endMotion _ _ _ hp (fun e => by simp [e, AxisState.inFlight] at hf))
  unfold Machine.stopItem
  dsimp only
  split
  · exact hp
  · split
    · exact hp
    · split
      · exact hp
      · split
        · rename_i hf; exact stopped _ _ hf
        · exact hp

theorem allStopItem {h : Hub} (r : Role) (hp : P h) : P (allStopItem r h).1 := by
  have ended : P (h.inFlightAxes.foldl (fun h a => h.endMotion a .allStop) h) :=
    K.endMotionsWith _ _ hp fun a ha e => by
      have := (List.mem_filter.mp ha).2
      simp [e, AxisState.inFlight] at this
  unfold Machine.allStopItem
  dsimp only
  split
  · exact ended
  · exact K.service ended

theorem paramSetItem {h : Hub} (r : Role) (index : Byte) (v : Half) (hp : P h) : P (paramSetItem r index v h).1 := by
  unfold Machine.paramSetItem
  split
  · exact hp
  · rename_i p _
    split
    · exact hp
    · rename_i h1
      split
      · exact hp
      · rename_i h2
        split
        · exact hp
        · by_cases hm : h.control.mode = .run
          · have h3 : p.access r ≠ .gated := fun e => h2 ⟨e, by simp [hm]⟩
            obtain ⟨e1, e2⟩ := Params.write_flow h.params p r v.toNat h1 h3
            exact K.same hp (by simp [Hub.motionPart, e1, e2])
          · exact K.setParams h _ hp hm

end MotionInvariant
end
end Sys2Proof.Machine

namespace Sys2Proof.Machine

/-! ### Every command keeps a property of the motion part -/

/-- Every single drop leaves an axis IDLE, so the drop of all claims leaves all of them IDLE (R58). -/
theorem Hub.dropAllClaims_idle (h : Hub) (a : Axis) : (h.dropAllClaims.record a).state = .idle := by
  have fold (l : List Axis) (k : Hub) (hk : a ∈ l ∨ (k.record a).state = .idle) :
      ((l.foldl (fun h a => if (h.record a).state = .idle then h else h.dropClaim a .mode) k).record a).state = .idle := by
    induction l generalizing k with
    | nil => simpa using hk
    | cons b l ih =>
      refine ih _ ?_
      by_cases ha : a = b
      · subst ha
        right; dsimp only; split
        · assumption
        · simp [Hub.record_dropClaim]
      · rcases hk with hk | hk
        · exact .inl (by simpa [ha] using hk)
        · right; dsimp only; split
          · exact hk
          · simpa [Hub.record_dropClaim, ha] using hk
  exact fold Axis.list h (.inl (by cases a <;> decide))

/-- Power-on leaves the claim table and the flow pool at reset, whatever the input levels (R157, R186). -/
theorem powerOnHub_rests (levels : Levels) :
    (powerOnHub levels).claims = .reset ∧ (powerOnHub levels).arbiter = .reset := by
  unfold powerOnHub
  dsimp only
  split
  · exact ⟨Hub.postTo_claims .., Hub.postTo_arbiter ..⟩
  · exact ⟨rfl, rfl⟩

section
variable {P : Hub → Prop} (K : MotionInvariant P)
include K

namespace MotionInvariant

/-! #### Items -/

theorem modeSetItem {h : Hub} (r : Role) (mode : Byte) (hp : P h) : P (modeSetItem r mode h).1 := by
  have entered : P h.enterRun.1 := by
    unfold Hub.enterRun
    split
    · exact hp
    · exact K.same (K.setMode h .run hp (by simp)) rfl
  unfold Machine.modeSetItem
  repeat' split
  case h_2 => exact entered
  case h_3 => exact K.setMode _ _ (K.dropAllClaims hp) fun _ _ => Hub.dropAllClaims_idle h
  all_goals exact hp

theorem clearStopItem {h : Hub} (r : Role) (hp : P h) : P (clearStopItem r h).1 := by
  unfold Machine.clearStopItem
  repeat' split
  case isFalse.isFalse.isFalse.isFalse =>
    exact K.same (K.setMode h .setup hp (by simp_all)) rfl
  all_goals exact hp

/-- Every item keeps the property. -/
theorem item (i : Instr) (code : Byte) (f : Hub → Hub × Answer) (h : Hub) (hi : itemOf i = some (code, f)) (hp : P h) :
    P (f h).1 := by
  cases i <;> simp only [itemOf, Option.some.injEq, Prod.mk.injEq, reduceCtorEq] at hi <;> obtain ⟨-, rfl⟩ := hi
  case claim => exact K.claimItem _ _ hp
  case release => exact K.releaseItem _ _ hp
  case handover => exact K.handoverItem _ _ _ hp
  case refresh => exact K.refreshItem _ _ hp
  case move => exact K.moveItem _ _ hp
  case stop => exact K.stopItem _ _ hp
  case allStop => exact K.allStopItem _ hp
  case axisRead => rwa [axisReadItem_hub]
  case flowRead | baleRead | paramGet | status | noticeRead => exact hp
  case baleStart => exact K.same hp (baleStartItem_motionPart ..)
  case bindStart => exact K.same hp (bindStartItem_motionPart ..)
  case bindRetry => exact K.same hp (bindRetryItem_motionPart ..)
  case wrapStart => exact K.same hp (wrapStartItem_motionPart ..)
  case filmReset => exact K.same hp (filmResetItem_motionPart ..)
  case baleNote => exact K.same hp (baleNoteItem_motionPart ..)
  case baleDeclare => exact K.same hp (baleDeclareItem_motionPart ..)
  case logRead => rwa [logReadItem_hub]
  case logDrop => exact K.same hp (logDropItem_motionPart ..)
  case paramSet => exact K.paramSetItem _ _ _ hp
  case zoneGet => rwa [zoneGetItem_hub]
  case zoneSetBounds => exact K.same hp (zoneSetBoundsItem_motionPart ..)
  case zoneSetEntry => exact K.same hp (zoneSetEntryItem_motionPart ..)
  case modeSet => exact K.modeSetItem _ _ hp
  case clearStop => exact K.clearStopItem _ hp
  case restart => exact K.same hp (restartItem_motionPart ..)
  case noticeClear => exact K.same hp (noticeClearItem_motionPart ..)
  case noticeMask => exact K.same hp (noticeMaskItem_motionPart ..)

/-! #### Events -/

theorem convertToPark {h : Hub} (hp : P h) : P h.convertToPark := by
  unfold Hub.convertToPark
  dsimp only
  split
  · exact K.edit h .ring _ hp ⟨rfl, rfl, Iff.rfl, fun _ => rfl, fun _ => rfl⟩
  · exact hp

theorem revolution {h : Hub} (hp : P h) : P h.revolution := by
  unfold Hub.revolution
  dsimp only
  repeat' split
  case h_1.isTrue =>
    exact K.convertToPark (K.same hp ((Hub.postTo_motionPart ..).trans (Hub.advance_motionPart ..)))
  case h_1.isFalse => exact K.same hp rfl
  all_goals exact hp

theorem ringCount {h : Hub} (hp : P h) : P h.ringCount := by
  unfold Hub.ringCount
  repeat' split
  · exact hp
  · exact K.same hp rfl
  · exact K.revolution (K.same hp rfl)

theorem ringIndexCount {h : Hub} (hp : P h) : P h.ringIndexCount := by
  unfold Hub.ringIndexCount
  dsimp only
  split
  · exact K.revolution (K.same hp rfl)
  · exact K.same hp rfl

theorem stopRingFilmOut {h : Hub} (hp : P h) : P h.stopRingFilmOut := by
  unfold Hub.stopRingFilmOut
  split
  · exact K.service (K.endMotion _ _ _ hp (by simp_all))
  · exact hp

theorem stopRingUnplanned {h : Hub} (hp : P h) : P h.stopRingUnplanned := by
  unfold Hub.stopRingUnplanned
  split
  · exact K.service (K.endMotion _ _ _ hp (by simp_all))
  · exact hp

theorem filmBreakEdge {h : Hub} (d : Dispenser) (active : Bool) (hp : P h) : P (h.filmBreakEdge d active) := by
  have recorded := K.same hp (h.setBreakInput_motionPart d active)
  unfold Hub.filmBreakEdge
  dsimp only
  split
  · have captured : ∀ k, P k →
        P (({ k with counter := k.counter.setDispenser d .broken }.postTo .filmBreak [.wr, .ct]).captureBreak d) :=
      fun k hk => K.same hk ((Hub.captureBreak_motionPart ..).trans (Hub.postTo_motionPart ..))
    unfold Hub.breakDispenser
    dsimp only
    split
    · exact K.stopRingFilmOut (captured _ recorded)
    · exact captured _ recorded
  · exact recorded

theorem tableLoadInactive {h : Hub} (hp : P h) : P h.tableLoadInactive := by
  have logged (k : Hub) (b : Bale) (planned : Bool) (hk : P k) : P (k.logBale .table b planned) :=
    K.same hk (Hub.logBale_motionPart ..)
  have recorded : P { h with inputs := { h.inputs with tableLoad := false } } := K.same hp rfl
  unfold Hub.tableLoadInactive
  dsimp only
  repeat' split
  case h_1 => exact logged _ _ _ recorded
  case h_2 | h_3 | h_4 => exact K.stopRingUnplanned (K.postTo _ _ (logged _ _ _ recorded))
  all_goals exact recorded

theorem stopInputActive {h : Hub} (hp : P h) : P h.stopInputActive := by
  have stopped (k : Hub) (hk : P k) (hi : k.control.mode = .run → ∀ a, (k.record a).state = .idle) :
      P ({ k with control := { k.control with mode := .stopped, stopLatch := true } }.postAll .stopLatched) :=
    K.postTo _ _ (K.same (K.setMode k .stopped hk fun _ => hi) rfl)
  have recorded : P { h with inputs := { h.inputs with stop := true } } := K.same hp rfl
  unfold Hub.stopInputActive
  dsimp only
  split
  · exact stopped _ (K.dropAllClaims recorded) fun _ => Hub.dropAllClaims_idle _
  · rename_i hm
    exact stopped _ recorded fun e => absurd e hm

theorem leaseExpiry {h : Hub} (a : Axis) (hp : P h) : P (h.leaseExpiry a) := by
  unfold Hub.leaseExpiry
  split
  · exact hp
  · exact K.dropAndServe _ _ hp

theorem waitTimeout {h : Hub} (a : Axis) (hp : P h) : P (h.waitTimeout a) := by
  unfold Hub.waitTimeout
  split
  · exact K.service (K.endEntry _ _ _ hp (by assumption))
  · exact hp

omit K in
/-- A sample stops MOVING axes only. -/
theorem sampleStops_moving (h before : Hub) (p : Axis × EndCause) (hp : p ∈ h.sampleStops before) :
    (h.record p.1).state = .moving := by
  obtain ⟨a, -, ha⟩ := List.mem_filterMap.mp hp
  obtain ⟨c, hc, rfl⟩ := Option.map_eq_some_iff.mp ha
  refine Decidable.byContradiction fun hn => ?_
  simp [Hub.sampleStop, show ¬ (h.record a).state = .moving from hn] at hc

theorem evaluate {h : Hub} (before : Hub) (hp : P h) : P (h.evaluate before) := by
  have stopped : P (h.applyStops (h.sampleStops before)) :=
    K.endMotions _ hp fun p hm => by simp [sampleStops_moving h before p hm]
  have arrivals := K.endMotionsWith (Axis.list.filter (h.applyStops (h.sampleStops before)).arrived) .arrived stopped
    fun a ha e => by
      have := (List.mem_filter.mp ha).2
      simp [Hub.arrived, e] at this
  unfold Hub.evaluate
  dsimp only
  split
  · exact arrivals
  · exact K.service arrivals

theorem sample {h : Hub} (volts : Voltages) (captured : P (h.capture volts)) : P (h.sample volts) := by
  unfold Hub.sample
  dsimp only
  refine K.evaluate h ?_
  split
  · exact K.postTo _ _ captured
  · exact captured

/-- Every event but power-on and a sample keeps the property. -/
theorem event (c : Instr) (f : Hub → Hub) (h : Hub) (hc : eventOf c = some f) (hon : ∀ l, c ≠ .powerOn l)
    (hs : ∀ volts, c ≠ .sample volts) (hp : P h) : P (f h) := by
  cases c <;> simp only [eventOf, Option.some.injEq, reduceCtorEq] at hc <;> subst hc
  case powerOn levels => exact absurd rfl (hon levels)
  case sample volts => exact absurd rfl (hs volts)
  case inclinometerEdge => exact K.same hp (by simp [Hub.motionPart, Sampler.inclinometerEdge_sampled])
  case inclinometerTimeout => exact K.same hp (by simp [Hub.motionPart])
  case ringCount => exact K.ringCount hp
  case ringIndexCount => exact K.ringIndexCount hp
  case leaseExpiry => exact K.leaseExpiry _ hp
  case waitTimeout => exact K.waitTimeout _ hp
  case filmBreakEdge => exact K.filmBreakEdge _ _ hp
  case netPulse => exact K.same hp h.netPulse_motionPart
  case netStartTimeout => exact K.same hp h.netStartTimeout_motionPart
  case netGapTimeout => exact K.same hp h.netGapTimeout_motionPart
  case cradleLoadActive => exact K.same hp h.cradleLoadActive_motionPart
  case cradleLoadInactive => exact K.same hp h.cradleLoadInactive_motionPart
  case tableLoadActive => exact K.same hp h.tableLoadActive_motionPart
  case tableLoadInactive => exact K.tableLoadInactive hp
  case transitTimeout => exact K.same hp h.transitTimeout_motionPart
  case tableLate => exact K.same hp h.tableLate_motionPart
  case prechamberFullEdge => exact K.same hp (Hub.evalFeedHold_motionPart _)
  case stopInputActive => exact K.stopInputActive hp
  all_goals exact K.same hp rfl

/-! #### Commands and steps -/

theorem itemInvariant : ItemInvariant P where
  sameBlocks hp hk := K.same hp (by have e := congrArg Hub.motionPart hk; exact e)
  overrun _ _ hp := K.same hp rfl
  restarted := K.restarted
  item := K.item

/-- Every command but power-on and a sample keeps the property. -/
theorem exec {c : Instr} {s t : State} (hon : ∀ l, c ≠ .powerOn l) (hs : ∀ volts, c ≠ .sample volts) (hp : P s.hub)
    (ht : exec c s = .next t) : P t.hub :=
  K.itemInvariant.exec (fun f h hc => K.event c f h hc hon hs) hp ht

theorem tick {h : Hub} (hp : P h) : P h.tick :=
  K.same (K.passTime h hp) (Hub.stopwatchTick_motionPart _)

/-- Every step keeps the property, when power-on gives it and the capture of a sample keeps it. -/
theorem step {s t : State} (on : ∀ l, P (powerOnHub l)) (capture : ∀ h volts, P h → P (Hub.capture h volts)) (hp : P s.hub)
    (ht : step s = .next t) : P t.hub := by
  refine K.itemInvariant.step (fun c f h hc hh => ?_) (fun _ => K.tick) hp ht
  by_cases hon : ∃ l, c = .powerOn l
  · obtain ⟨l, rfl⟩ := hon
    cases hc; exact on l
  · by_cases hs : ∃ volts, c = .sample volts
    · obtain ⟨volts, rfl⟩ := hs
      cases hc; exact K.sample volts (capture h volts hh)
    · exact K.event c f h hc (not_exists.mp hon) (not_exists.mp hs) hh

end MotionInvariant
end
end Sys2Proof.Machine

namespace Sys2Proof.Machine

/-! ### The bands of the wait queue -/

/-- A queue in its bands stays so with an entry joined at the tail of its band (R84). -/
theorem joinQueue_bands (q : List WaitEntry) (e : WaitEntry)
    (hq : q.Pairwise fun x y => x.cls.band ≤ y.cls.band) :
    (joinQueue q e).Pairwise fun x y => x.cls.band ≤ y.cls.band := by
  have between (p : WaitEntry → Bool) (front : ∀ x, p x = true → x.cls.band ≤ e.cls.band)
      (behind : ∀ x ∈ q.dropWhile p, e.cls.band ≤ x.cls.band) :
      (q.takeWhile p ++ e :: q.dropWhile p).Pairwise fun x y => x.cls.band ≤ y.cls.band := by
    have hx : ∀ x ∈ q.takeWhile p, x.cls.band ≤ e.cls.band := fun x hx =>
      front x (List.all_eq_true.mp List.all_takeWhile x hx)
    refine List.pairwise_append.mpr ⟨hq.sublist (List.takeWhile_sublist _),
      List.pairwise_cons.mpr ⟨behind, hq.sublist (List.dropWhile_sublist _)⟩, fun x hm y hy => ?_⟩
    rcases List.mem_cons.mp hy with rfl | hy
    · exact hx x hm
    · exact Nat.le_trans (hx x hm) (behind y hy)
  unfold joinQueue
  split
  · rename_i hc
    exact between _ (fun x hx => by simp [of_decide_eq_true hx, WaitClass.band]) (fun x _ => by simp [hc, WaitClass.band])
  · rename_i hc
    refine between _ (fun x hx => ?_) fun x hx => ?_
    · have := of_decide_eq_true hx
      rw [hc]
      revert this
      cases x.cls <;> simp [WaitClass.band]
    · have hs := hq.sublist (List.dropWhile_sublist fun x : WaitEntry => decide (x.cls ≠ .normal))
      cases hd : q.dropWhile fun x => decide (x.cls ≠ .normal) with
      | nil => rw [hd] at hx; cases hx
      | cons y l =>
        have hy : y.cls = .normal := by
          have := List.head_dropWhile_not (fun x : WaitEntry => decide (x.cls ≠ .normal)) (l := q)
            (by rw [hd]; exact List.cons_ne_nil y l)
          simp only [hd, List.head_cons] at this
          simpa using this
        rw [hd] at hs hx
        have hle : y.cls.band ≤ x.cls.band := by
          rcases List.mem_cons.mp hx with rfl | hx
          · exact Nat.le_refl _
          · exact (List.pairwise_cons.mp hs).1 x hx
        rw [hy] at hle
        rw [hc]
        exact Nat.le_trans (by decide) hle
  · rename_i hc
    refine List.pairwise_append.mpr ⟨hq, by simp, fun x _ y hy => ?_⟩
    obtain rfl := List.mem_singleton.mp hy
    rw [hc]
    cases x.cls <;> decide

/-- Bands are kept by a queue that only loses entries. -/
theorem Hub.bandsAgree_of_sublist {h k : Hub} (hb : h.bandsAgree) (hs : k.arbiter.queue.Sublist h.arbiter.queue) :
    k.bandsAgree := List.Pairwise.sublist hs hb

theorem Hub.bandsAgree_of_queue {h k : Hub} (hb : h.bandsAgree) (e : k.arbiter.queue = h.arbiter.queue) : k.bandsAgree := by
  unfold Hub.bandsAgree
  rw [e]
  exact hb

theorem Hub.undoMotion_queue_sublist (h : Hub) (a : Axis) :
    (h.undoMotion a).arbiter.queue.Sublist h.arbiter.queue := by
  rw [Hub.undoMotion_arbiter]
  split
  · exact List.Sublist.refl _
  · exact List.filter_sublist
  · exact List.filter_sublist
  all_goals exact List.Sublist.refl _

theorem Hub.enqueue_bandsAgree {h : Hub} (a : Axis) (c : WaitClass) (hb : h.bandsAgree) : (h.enqueue a c).bandsAgree :=
  joinQueue_bands _ _ hb

theorem Hub.suspend_bandsAgree {h : Hub} (vs : List Axis) (hb : h.bandsAgree) : (h.suspend vs).bandsAgree := by
  have paused : (vs.foldl Hub.pause h).bandsAgree := by
    induction vs generalizing h with
    | nil => exact hb
    | cons v vs ih => exact ih (by simpa [Hub.bandsAgree] using hb)
  have joined (l : List Axis) (k : Hub) (hk : k.bandsAgree) : (l.foldl (fun h v => h.enqueue v .resume) k).bandsAgree := by
    induction l generalizing k with
    | nil => exact hk
    | cons v l ih => exact ih _ (Hub.enqueue_bandsAgree v _ hk)
  exact joined _ _ paused

theorem Hub.grant_queue (h : Hub) (a : Axis) : (h.grant a).arbiter.queue = h.arbiter.queue := by rw [Hub.grant_arbiter]

theorem Hub.bandsAgree_of_reset {h : Hub} (ha : h.arbiter = .reset) : h.bandsAgree := by
  simp [Hub.bandsAgree, ha, Arbiter.reset]

theorem bandsAgree_motionInvariant : MotionInvariant Hub.bandsAgree where
  same {h k} hb hk :=
    have e : k.arbiter = h.arbiter := congrArg MotionPart.arbiter hk
    Hub.bandsAgree_of_queue hb (congrArg Arbiter.queue e)
  restarted _ _ := Hub.bandsAgree_of_reset rfl
  edit _ _ _ hb _ := hb
  claim _ _ _ hb _ _ := hb
  endMotion h a c hb _ := Hub.bandsAgree_of_sublist hb (by
    rw [Hub.endMotion_arbiter]; exact h.undoMotion_queue_sublist a)
  endEntry h a c hb _ := Hub.bandsAgree_of_sublist hb (List.filter_sublist.trans (by
    rw [Hub.endMotion_arbiter]; exact h.undoMotion_queue_sublist a))
  dropClaim h a c hb := Hub.bandsAgree_of_sublist hb (by
    rw [Hub.dropClaim_arbiter]; exact h.undoMotion_queue_sublist a)
  grant h a hb _ _ := Hub.bandsAgree_of_queue hb (h.grant_queue a)
  grantFromQueue h a hb _ _ := Hub.bandsAgree_of_sublist hb (by
    rw [Hub.grantFromQueue_arbiter]; exact List.filter_sublist)
  queueMotion _ _ _ hb _ := Hub.enqueue_bandsAgree _ _ hb
  preempt h a hb _ _ := Hub.bandsAgree_of_queue (Hub.suspend_bandsAgree (h.victims (h.demand a) h.pausable 0) hb)
    (Hub.grant_queue _ a)
  setMode _ _ hb _ := hb
  setParams _ _ hb _ := hb
  passTime _ hb := List.pairwise_map.mpr hb

/-! ### Records, queue and flow pool after one axis changes -/

/-- What `recordsAgree` asks of one record, for the DEMAND of its axis (R16). -/
def AxisRecord.Agrees (x : AxisRecord) (demand : Nat) : Prop :=
  (x.state = .idle ↔ x.holder = none) ∧ (x.state = .idle → x.lease = 0) ∧ x.flow = if x.state = .moving then demand else 0

theorem Hub.recordsAgree.record {h : Hub} (hr : h.recordsAgree) (a : Axis) : (h.record a).Agrees (h.demand a) := hr a

theorem AxisRecord.Agrees.held {x : AxisRecord} {d : Nat} (hx : x.Agrees d) : x.state = .idle ↔ x.holder = none := hx.1

theorem AxisRecord.Agrees.lease {x : AxisRecord} {d : Nat} (hx : x.Agrees d) (hs : x.state = .idle) : x.lease = 0 :=
  hx.2.1 hs

theorem AxisRecord.Agrees.flow_moving {x : AxisRecord} {d : Nat} (hx : x.Agrees d) (hs : x.state = .moving) : x.flow = d :=
  hx.2.2.trans (if_pos hs)

theorem AxisRecord.Agrees.flow_resting {x : AxisRecord} {d : Nat} (hx : x.Agrees d) (hs : x.state ≠ .moving) : x.flow = 0 :=
  hx.2.2.trans (if_neg hs)

/-- What `queueAgrees` asks of a wait queue, whether or not it is the one the hub holds (R83). -/
def Hub.AgreesWithQueue (h : Hub) (q : List WaitEntry) : Prop :=
  (q.map (·.axis)).Nodup ∧
    (∀ a, (∃ e ∈ q, e.axis = a) ↔ (h.record a).state = .waiting ∨ (h.record a).state = .paused) ∧
    ∀ e, e ∈ q → (e.cls = .resume ↔ (h.record e.axis).state = .paused)

theorem Hub.queueAgrees_iff (h : Hub) : h.queueAgrees ↔ h.AgreesWithQueue h.arbiter.queue := Iff.rfl

/-- The order of the entries does not matter to the records. -/
theorem Hub.AgreesWithQueue.perm {h : Hub} {q p : List WaitEntry} (hq : h.AgreesWithQueue q) (hp : p.Perm q) :
    h.AgreesWithQueue p := by
  obtain ⟨hn, he, hc⟩ := hq
  refine ⟨(hp.map _).nodup_iff.mpr hn, fun a => ?_, fun e hm => hc e (hp.mem_iff.mp hm)⟩
  simp only [hp.mem_iff, he]

theorem joinQueue_perm (q : List WaitEntry) (e : WaitEntry) : (joinQueue q e).Perm (e :: q) := by
  have split (p : WaitEntry → Bool) : (q.takeWhile p ++ e :: q.dropWhile p).Perm (e :: q) := by
    refine List.perm_middle.trans ?_
    rw [List.takeWhile_append_dropWhile]
  unfold joinQueue
  split
  · exact split _
  · exact split _
  · exact List.perm_append_singleton _ _

/-- The sum over a list without repetition, with one member's part taken out. -/
theorem sum_map_of_mem (f : Axis → Nat) (a : Axis) {l : List Axis} (hn : l.Nodup) (ha : a ∈ l) :
    (l.map f).sum = f a + ((l.filter (fun b => b ≠ a)).map f).sum := by
  induction l with
  | nil => cases ha
  | cons b l ih =>
    obtain ⟨hb, hn⟩ := List.nodup_cons.mp hn
    by_cases e : b = a
    · subst e
      have all : l.filter (fun c => c ≠ b) = l :=
        List.filter_eq_self.mpr fun c hc => decide_eq_true fun e : c = b => hb (e ▸ hc)
      rw [List.filter_cons_of_neg (by simp), all, List.map_cons, List.sum_cons]
    · have hm : a ∈ l := (List.mem_cons.mp ha).resolve_left fun e' => e e'.symm
      rw [List.filter_cons_of_pos (by simpa using e), List.map_cons, List.map_cons, List.sum_cons, List.sum_cons, ih hn hm]
      omega

/-- The part `k` has the record `x` at `a`, and else the records, the DEMANDs, the budget and the mode of `h`. -/
structure Hub.Turns (h k : Hub) (a : Axis) (x : AxisRecord) : Prop where
  record : ∀ b, k.record b = if b = a then x else h.record b
  demand : k.params.demand = h.params.demand
  budget : k.params.flowBudget = h.params.flowBudget
  mode : k.control.mode = h.control.mode

section
variable {h k : Hub} {a : Axis} {x : AxisRecord} (T : h.Turns k a x)
include T

namespace Hub.Turns

theorem record_self : k.record a = x := by rw [T.record, if_pos rfl]

theorem record_ne {b : Axis} (hb : b ≠ a) : k.record b = h.record b := by rw [T.record, if_neg hb]

theorem demand_eq : k.demand = h.demand := funext fun b => by simp [Hub.demand, T.demand]

theorem recordsAgree (hr : h.recordsAgree) (hx : x.Agrees (h.demand a)) : k.recordsAgree := fun b => by
  rw [T.record, T.demand_eq]
  split
  · subst_vars; exact hx
  · exact hr b

theorem restsOutsideRun (hr : h.restsOutsideRun) (hx : h.control.mode ≠ .run → x.state = .idle) : k.restsOutsideRun := by
  intro hm b
  rw [T.mode] at hm
  rw [T.record]
  split
  · exact hx hm
  · exact hr hm b

/-- The flow pool of an axis that is MOVING after the change as before it. -/
theorem flowAgrees_same (hf : h.flowAgrees) (hx : x.state = .moving ↔ (h.record a).state = .moving)
    (hi : k.arbiter.inUse = h.arbiter.inUse) (hg : k.arbiter.grantOrder = h.arbiter.grantOrder) : k.flowAgrees := by
  obtain ⟨hn, hm, hs, hb⟩ := hf
  refine ⟨hg ▸ hn, fun b => ?_, by rw [hi, hg, T.demand_eq, hs], by rw [hi, T.budget]; exact hb⟩
  rw [hg, hm, T.record]
  split
  · subst_vars; exact hx.symm
  · rfl

/-- An axis that is not MOVING any more has left the grant order, and its flow is returned (R82). -/
theorem flowAgrees_left (hf : h.flowAgrees) (hr : h.recordsAgree) (hx : x.state ≠ .moving)
    (hi : k.arbiter.inUse = h.arbiter.inUse - (h.record a).flow)
    (hg : k.arbiter.grantOrder = h.arbiter.grantOrder.filter (fun b => b ≠ a)) : k.flowAgrees := by
  obtain ⟨hn, hm, hs, hb⟩ := hf
  have flow : (h.arbiter.grantOrder.map h.demand).sum =
      (h.record a).flow + ((h.arbiter.grantOrder.filter (fun b => b ≠ a)).map h.demand).sum := by
    by_cases ha : (h.record a).state = .moving
    · rw [(hr.record a).flow_moving ha]; exact sum_map_of_mem h.demand a hn ((hm a).mpr ha)
    · rw [(hr.record a).flow_resting ha, Nat.zero_add, List.filter_eq_self.mpr fun b hb' => by
        simpa using fun e : b = a => ha ((hm a).mp (e ▸ hb'))]
  refine ⟨hg ▸ hn.filter _, fun b => ?_, ?_, ?_⟩
  · rw [hg, List.mem_filter, hm, T.record]
    by_cases hb' : b = a <;> simp [hb', hx]
  · rw [hi, hg, T.demand_eq, hs, flow, Nat.add_sub_cancel_left]
  · rw [hi, T.budget]; exact Nat.le_trans (Nat.sub_le _ _) hb

/-- An axis granted is last in the grant order, and its DEMAND is in use (R72, R82). -/
theorem flowAgrees_granted (hf : h.flowAgrees) (hs : (h.record a).state ≠ .moving) (hx : x.state = .moving)
    (hfit : h.fits a = true) (hi : k.arbiter.inUse = h.arbiter.inUse + h.demand a)
    (hg : k.arbiter.grantOrder = h.arbiter.grantOrder ++ [a]) : k.flowAgrees := by
  obtain ⟨hn, hm, hsum, hb⟩ := hf
  refine ⟨?_, fun b => ?_, ?_, ?_⟩
  · rw [hg]
    exact List.nodup_append.mpr ⟨hn, by simp, fun b hb' c hc e => hs ((hm a).mp (by simp_all))⟩
  · rw [hg, T.record, List.mem_append, hm, List.mem_singleton]
    by_cases hb' : b = a <;> simp [hb', hx]
  · rw [hi, hg, T.demand_eq, hsum]; simp
  · rw [hi, T.budget, Nat.add_comm]; exact of_decide_eq_true hfit

/-- The queue of an axis that stands WAITING or PAUSED after the change as before it. -/
theorem agreesWithQueue_same {q : List WaitEntry} (hq : h.AgreesWithQueue q)
    (hw : x.state = .waiting ↔ (h.record a).state = .waiting) (hp : x.state = .paused ↔ (h.record a).state = .paused) :
    k.AgreesWithQueue q := by
  obtain ⟨hn, he, hc⟩ := hq
  have waiting (b : Axis) : (k.record b).state = .waiting ↔ (h.record b).state = .waiting := by
    rw [T.record]; split <;> simp_all
  have paused (b : Axis) : (k.record b).state = .paused ↔ (h.record b).state = .paused := by
    rw [T.record]; split <;> simp_all
  exact ⟨hn, fun b => by rw [he, waiting, paused], fun e hm => by rw [hc e hm, paused]⟩

/-- An axis that neither waits nor is PAUSED has left the queue (R83, R93). -/
theorem agreesWithQueue_left {q : List WaitEntry} (hq : h.AgreesWithQueue q) (hw : x.state ≠ .waiting)
    (hp : x.state ≠ .paused) : k.AgreesWithQueue (q.filter (fun e => e.axis ≠ a)) := by
  obtain ⟨hn, he, hc⟩ := hq
  refine ⟨hn.sublist (List.filter_sublist.map _), fun b => ?_, fun e hm => ?_⟩
  · rw [T.record]
    by_cases hb : b = a
    · simp [hb, hw, hp]
    · rw [if_neg hb, ← he]
      constructor
      · rintro ⟨e, hm, rfl⟩; exact ⟨e, (List.mem_filter.mp hm).1, rfl⟩
      · rintro ⟨e, hm, rfl⟩; exact ⟨e, List.mem_filter.mpr ⟨hm, by simpa using hb⟩, rfl⟩
  · obtain ⟨hm, hne⟩ := List.mem_filter.mp hm
    rw [T.record_ne (by simpa using hne)]
    exact hc e hm

/-- An axis that had no entry and now waits, or is PAUSED, has joined the queue (R83, R84). -/
theorem agreesWithQueue_joined {q : List WaitEntry} {e : WaitEntry} (hq : h.AgreesWithQueue q) (ha : e.axis = a)
    (hw : (h.record a).state ≠ .waiting) (hp : (h.record a).state ≠ .paused)
    (hx : x.state = .waiting ∧ e.cls ≠ .resume ∨ x.state = .paused ∧ e.cls = .resume) :
    k.AgreesWithQueue (e :: q) := by
  obtain ⟨hn, he, hc⟩ := hq
  have absent : ∀ f ∈ q, f.axis ≠ a := fun f hf e => ((he a).mp ⟨f, hf, e⟩).elim hw hp
  refine ⟨?_, fun b => ?_, fun f hm => ?_⟩
  · rw [List.map_cons, List.nodup_cons]
    exact ⟨fun hm => by obtain ⟨f, hf, e⟩ := List.mem_map.mp hm; exact absent f hf (e.trans ha), hn⟩
  · rw [T.record]
    by_cases hb : b = a
    · subst hb
      simp only [List.mem_cons, exists_eq_or_imp, ha, true_or, true_iff]
      exact hx.imp And.left And.left
    · rw [if_neg hb, ← he]
      simp only [List.mem_cons, exists_eq_or_imp]
      exact or_iff_right fun e' => hb (e'.symm.trans ha)
  · rcases List.mem_cons.mp hm with rfl | hm
    · rw [ha, T.record_self]
      rcases hx with ⟨h1, h2⟩ | ⟨h1, h2⟩ <;> simp [h1, h2]
    · rw [T.record_ne (absent f hm)]
      exact hc f hm

end Hub.Turns
end

end Sys2Proof.Machine

namespace Sys2Proof.Machine

/-! ### The claim table and the flow pool agree through every operation -/

section
variable {h k : Hub} {a : Axis} {x : AxisRecord}

/-- Valve outputs that agree with the records; the flow pool does not depend on them. -/
def Hub.valvesOf (h : Hub) : PerAxis Valves :=
  let v := fun a => if (h.record a).state = .moving then Valves.towards (h.record a).direction else .off
  ⟨v .flap, v .tailgate, v .cradle, v .ring, v .tilt, v .cutter⟩

/-- Undoing a motion takes the axis out of the flow pool altogether, whatever it stands in. -/
theorem Hub.undoMotion_arbiter_left (a : Axis) (hm : h.motionAgrees) :
    (h.undoMotion a).arbiter = {
      inUse := h.arbiter.inUse - (h.record a).flow,
      grantOrder := h.arbiter.grantOrder.filter (fun b => b ≠ a),
      queue := h.arbiter.queue.filter (fun e => e.axis ≠ a) } := by
  let s : Hub := { h with claims := { h.claims with valves := h.valvesOf } }
  have hv : s.valvesAgree := fun b => by cases b <;> rfl
  have e := congrArg Hub.arbiter (s.undoMotion_eq a hm hv)
  rw [Hub.undoMotion_arbiter] at e ⊢
  exact e

theorem Hub.motionAgrees.record (hm : h.motionAgrees) (a : Axis) : (h.record a).Agrees (h.demand a) := hm.1.record a

theorem Hub.motionAgrees.rests (hm : h.motionAgrees) : h.restsOutsideRun := hm.2.2.2

theorem Hub.motionAgrees.entry_iff (hm : h.motionAgrees) (a : Axis) :
    (∃ e ∈ h.arbiter.queue, e.axis = a) ↔ (h.record a).state = .waiting ∨ (h.record a).state = .paused := hm.2.1.2.1 a

theorem Hub.motionAgrees.granted_nodup (hm : h.motionAgrees) : h.arbiter.grantOrder.Nodup := hm.2.2.1.1

theorem Hub.motionAgrees.granted_iff (hm : h.motionAgrees) (a : Axis) :
    a ∈ h.arbiter.grantOrder ↔ (h.record a).state = .moving := hm.2.2.1.2.1 a

theorem Hub.motionAgrees.run_of_held (hm : h.motionAgrees) (ha : (h.record a).state ≠ .idle) : h.control.mode = .run := by
  exact Decidable.byContradiction fun hn => ha (hm.rests hn a)

theorem Hub.motionAgrees.no_entry (hm : h.motionAgrees) (hw : (h.record a).state ≠ .waiting)
    (hp : (h.record a).state ≠ .paused) : h.arbiter.queue.filter (fun e => e.axis ≠ a) = h.arbiter.queue :=
  List.filter_eq_self.mpr fun e he => by
    simpa using fun ha : e.axis = a => ((hm.entry_iff a).mp ⟨e, he, ha⟩).elim hw hp

theorem Hub.motionAgrees.entry_state (hm : h.motionAgrees) (he : h.hasEntry a = true) :
    (h.record a).state = .waiting ∨ (h.record a).state = .paused := by
  obtain ⟨e, hq, ha⟩ := List.any_eq_true.mp he
  exact (hm.entry_iff a).mp ⟨e, hq, of_decide_eq_true ha⟩

/-- An axis taken out of the flow pool, IDLE or CLAIMED (R45, R75). -/
theorem Hub.Turns.motionAgrees_left (T : h.Turns k a x) (hm : h.motionAgrees) (hx : x.Agrees (h.demand a))
    (hs : x.state = .idle ∨ x.state = .claimed) (hr : h.control.mode ≠ .run → x.state = .idle)
    (hk : k.arbiter = (h.undoMotion a).arbiter) : k.motionAgrees := by
  have left := h.undoMotion_arbiter_left a hm
  rw [← hk] at left
  obtain ⟨hrec, hq, hf, hrest⟩ := hm
  refine ⟨T.recordsAgree hrec hx, ?_, T.flowAgrees_left hf hrec ?_ ?_ ?_, T.restsOutsideRun hrest hr⟩
  · rw [Hub.queueAgrees_iff, left]
    exact T.agreesWithQueue_left hq (by rcases hs with e | e <;> simp [e]) (by rcases hs with e | e <;> simp [e])
  · rcases hs with e | e <;> simp [e]
  · rw [left]
  · rw [left]

/-- An axis that was held granted its motion (R72). -/
theorem Hub.Turns.motionAgrees_granted (T : h.Turns k a x) (hm : h.motionAgrees) (ha : (h.record a).state ≠ .idle)
    (hn : (h.record a).state ≠ .moving) (hx : x.Agrees (h.demand a)) (hs : x.state = .moving) (hfit : h.fits a = true)
    (hk : k.arbiter = {
      inUse := h.arbiter.inUse + h.demand a, grantOrder := h.arbiter.grantOrder ++ [a],
      queue := h.arbiter.queue.filter (fun e => e.axis ≠ a) }) : k.motionAgrees := by
  have run := hm.run_of_held ha
  obtain ⟨hrec, hq, hf, hrest⟩ := hm
  refine ⟨T.recordsAgree hrec hx, ?_, T.flowAgrees_granted hf hn hs hfit ?_ ?_, T.restsOutsideRun hrest (absurd run)⟩
  · rw [Hub.queueAgrees_iff, hk]
    exact T.agreesWithQueue_left hq (by simp [hs]) (by simp [hs])
  · rw [hk]
  · rw [hk]

/-- A record replaced, its axis staying where it is in the flow pool. -/
theorem Hub.Turns.motionAgrees_same (T : h.Turns k a x) (hm : h.motionAgrees) (hx : x.Agrees (h.demand a))
    (hmov : x.state = .moving ↔ (h.record a).state = .moving) (hw : x.state = .waiting ↔ (h.record a).state = .waiting)
    (hp : x.state = .paused ↔ (h.record a).state = .paused) (hr : h.control.mode ≠ .run → x.state = .idle)
    (hk : k.arbiter = h.arbiter) : k.motionAgrees := by
  obtain ⟨hrec, hq, hf, hrest⟩ := hm
  refine ⟨T.recordsAgree hrec hx, ?_, T.flowAgrees_same hf hmov (by rw [hk]) (by rw [hk]), T.restsOutsideRun hrest hr⟩
  rw [Hub.queueAgrees_iff, hk]
  exact T.agreesWithQueue_same hq hw hp

/-! #### Ends and drops -/

/-- The record of an axis whose motion has ended carries no flow. -/
theorem AxisRecord.Agrees.flow_returned {y : AxisRecord} {d : Nat} (hy : y.Agrees d) :
    (if y.state = .moving then 0 else y.flow) = 0 := by
  split
  · rfl
  · exact hy.flow_resting ‹_›

theorem Hub.endMotion_motionAgrees (a : Axis) (c : EndCause) (hm : h.motionAgrees) (ha : (h.record a).state ≠ .idle) :
    (h.endMotion a c).motionAgrees := by
  have T : h.Turns (h.endMotion a c) a _ := ⟨fun b => h.record_endMotion a b c, by simp, by simp, by simp⟩
  refine T.motionAgrees_left hm ⟨?_, by simp, ?_⟩ (.inr rfl) (absurd (hm.run_of_held ha)) (by simp)
  · simpa using fun e => ha ((hm.record a).held.mpr e)
  · simpa using (hm.record a).flow_returned

theorem Hub.dropClaim_motionAgrees (a : Axis) (c : EndCause) (hm : h.motionAgrees) : (h.dropClaim a c).motionAgrees := by
  have T : h.Turns (h.dropClaim a c) a _ := ⟨fun b => h.record_dropClaim a b c, by simp, by simp, by simp⟩
  refine T.motionAgrees_left hm ⟨by simp, by simp, ?_⟩ (.inl rfl) (fun _ => rfl) (by simp)
  simpa using (hm.record a).flow_returned

theorem Hub.dequeue_endMotion (a : Axis) (c : EndCause) (hm : h.motionAgrees) :
    (h.endMotion a c).dequeue a = h.endMotion a c := by
  have e : (h.endMotion a c).arbiter.queue.filter (fun e => e.axis ≠ a) = (h.endMotion a c).arbiter.queue := by
    rw [Hub.endMotion_arbiter, h.undoMotion_arbiter_left a hm]; simp
  rw [Hub.dequeue, e]

/-! #### Grants -/

/-- The record of an axis just granted (R72). -/
theorem AxisRecord.Agrees.granted {y : AxisRecord} {d : Nat} (hy : y.Agrees d) (hs : y.state ≠ .idle) (n : Nat) :
    AxisRecord.Agrees { y with state := .moving, flow := d, lease := n } d :=
  ⟨by simpa using fun e => hs (hy.held.mpr e), by simp, by simp⟩

theorem Hub.grant_motionAgrees (a : Axis) (hm : h.motionAgrees) (ha : (h.record a).state = .claimed)
    (hfit : h.fits a = true) : (h.grant a).motionAgrees := by
  have T : h.Turns (h.grant a) a _ := ⟨h.record_grant a, by simp, by simp, by simp⟩
  refine T.motionAgrees_granted hm (by simp [ha]) (by simp [ha]) ((hm.record a).granted (by simp [ha]) _) rfl hfit ?_
  rw [Hub.grant_arbiter, hm.no_entry (by simp [ha]) (by simp [ha])]

theorem Hub.grantFromQueue_motionAgrees (a : Axis) (hm : h.motionAgrees) (he : h.hasEntry a = true)
    (hfit : h.fits a = true) : (h.grantFromQueue a).motionAgrees := by
  have hs := hm.entry_state he
  have ha : (h.record a).state ≠ .idle := by rcases hs with e | e <;> simp [e]
  have T : h.Turns (h.grantFromQueue a) a _ := ⟨h.record_grantFromQueue a, by simp, by simp, by simp⟩
  exact T.motionAgrees_granted hm ha (by rcases hs with e | e <;> simp [e]) ((hm.record a).granted ha _) rfl hfit
    (h.grantFromQueue_arbiter a)

/-! #### Queued and suspended motions -/

theorem Hub.queueMotion_motionAgrees (a : Axis) (c : MotionClass) (hm : h.motionAgrees)
    (ha : (h.record a).state = .claimed) : (h.queueMotion a c).motionAgrees := by
  have T : h.Turns (h.queueMotion a c) a _ :=
    ⟨fun b => h.record_queueMotion a b c, by simp [Hub.queueMotion], by simp [Hub.queueMotion], by simp [Hub.queueMotion]⟩
  have run := hm.run_of_held (a := a) (by simp [ha])
  obtain ⟨hrec, hq, hf, hrest⟩ := hm
  have hr := hrec.record a
  refine ⟨T.recordsAgree hrec ⟨?_, by simp, ?_⟩, ?_, T.flowAgrees_same hf (by simp [ha]) rfl rfl,
    T.restsOutsideRun hrest (absurd run)⟩
  · simpa [ha] using hr.held
  · simpa using hr.flow_resting (by simp [ha])
  · refine Hub.AgreesWithQueue.perm ?_ (joinQueue_perm ..)
    have cls : c.waitClass ≠ .resume := by cases c <;> simp [MotionClass.waitClass]
    exact T.agreesWithQueue_joined hq rfl (by simp [ha]) (by simp [ha]) (.inl ⟨rfl, cls⟩)

/-- `motionAgrees` with another wait queue in the place of the hub's own. -/
def Hub.MotionAgreesWith (h : Hub) (q : List WaitEntry) : Prop :=
  h.recordsAgree ∧ h.AgreesWithQueue q ∧ h.flowAgrees ∧ h.restsOutsideRun

/-- The RESUME entry of an axis (R85, R88). -/
def Hub.resumeEntry (h : Hub) (v : Axis) : WaitEntry := ⟨v, .resume, h.params.waitLimit * Config.unitsPerSecond⟩

/-- A pause agrees with the queue to which the RESUME entry is still to be joined, and frees the DEMAND of its axis (R88). -/
theorem Hub.pause_agreesWith {q : List WaitEntry} (v : Axis) (n : Nat) (hm : h.MotionAgreesWith q)
    (hv : (h.record v).state = .moving) :
    (h.pause v).MotionAgreesWith (⟨v, .resume, n⟩ :: q) ∧ (h.pause v).arbiter.inUse + h.demand v = h.arbiter.inUse := by
  obtain ⟨hrec, hq, hf, hrest⟩ := hm
  have T : h.Turns (h.pause v) v _ := ⟨h.record_pause v, by simp, by simp, by simp⟩
  have hr := hrec.record v
  have hle : h.demand v ≤ h.arbiter.inUse := by
    obtain ⟨hn, hmov, hsum, -⟩ := hf
    rw [hsum, sum_map_of_mem h.demand v hn ((hmov v).mpr hv)]
    exact Nat.le_add_right _ _
  refine ⟨⟨T.recordsAgree hrec ⟨?_, by simp, by simp⟩, ?_, T.flowAgrees_left hf hrec (by simp) (by simp) (by simp),
    T.restsOutsideRun hrest fun hn => ?_⟩, ?_⟩
  · simpa [hv] using hr.held
  · exact T.agreesWithQueue_joined hq rfl (by simp [hv]) (by simp [hv]) (.inr ⟨rfl, rfl⟩)
  · simpa [hv] using hrest hn v
  · rw [Hub.pause_arbiter, hr.flow_moving hv]; exact Nat.sub_add_cancel hle

/-- Several pauses, one after another. -/
theorem Hub.pauses_agreeWith (vs : List Axis) {q : List WaitEntry} (hm : h.MotionAgreesWith q) (hn : vs.Nodup)
    (hv : ∀ v ∈ vs, (h.record v).state = .moving) :
    (vs.foldl Hub.pause h).MotionAgreesWith (vs.map h.resumeEntry ++ q) ∧
      (vs.foldl Hub.pause h).arbiter.inUse + (vs.map h.demand).sum = h.arbiter.inUse ∧
      (vs.foldl Hub.pause h).params = h.params ∧
      ∀ b, b ∉ vs → (vs.foldl Hub.pause h).record b = h.record b := by
  induction vs generalizing h q with
  | nil => exact ⟨hm, by simp, rfl, fun _ _ => rfl⟩
  | cons v vs ih =>
    obtain ⟨hvn, hn⟩ := List.nodup_cons.mp hn
    obtain ⟨hp, hu⟩ := h.pause_agreesWith v (h.params.waitLimit * Config.unitsPerSecond) hm (hv v List.mem_cons_self)
    obtain ⟨⟨hrec, hq, hrest⟩, hsum, hparams, others⟩ := ih hp hn fun w hw => by
      rw [Hub.record_pause, if_neg fun e : w = v => hvn (e ▸ hw)]; exact hv w (List.mem_cons_of_mem _ hw)
    have demand : (h.pause v).demand = h.demand := funext fun b => by simp [Hub.demand]
    have entry : (h.pause v).resumeEntry = h.resumeEntry := funext fun b => by simp [Hub.resumeEntry]
    rw [entry] at hq
    rw [demand] at hsum
    refine ⟨⟨hrec, hq.perm ?_, hrest⟩, ?_, hparams.trans (by simp), fun b hb => ?_⟩
    · exact (List.perm_middle (l₁ := vs.map h.resumeEntry)).symm
    · rw [List.map_cons, List.sum_cons, List.foldl_cons]; omega
    · obtain ⟨hbv, hb⟩ : b ≠ v ∧ b ∉ vs := by simpa using hb
      rw [List.foldl_cons, others b hb, Hub.record_pause, if_neg hbv]

/-- Entries joined one after another change nothing but the queue. -/
theorem Hub.enqueues_eq (l : List Axis) (h : Hub) :
    ∃ q, q.Perm (l.map h.resumeEntry ++ h.arbiter.queue) ∧
      l.foldl (fun h v => h.enqueue v .resume) h = { h with arbiter := { h.arbiter with queue := q } } := by
  induction l generalizing h with
  | nil => exact ⟨h.arbiter.queue, List.Perm.refl _, rfl⟩
  | cons v l ih =>
    obtain ⟨q, hq, e⟩ := ih (h.enqueue v .resume)
    refine ⟨q, hq.trans ?_, by rw [List.foldl_cons, e]; rfl⟩
    exact ((joinQueue_perm h.arbiter.queue (h.resumeEntry v)).append_left _).trans List.perm_middle

theorem Hub.pauses_queue (vs : List Axis) (h : Hub) : (vs.foldl Hub.pause h).arbiter.queue = h.arbiter.queue := by
  induction vs generalizing h with
  | nil => rfl
  | cons v vs ih => rw [List.foldl_cons, ih, Hub.pause_arbiter]

/-- A suspension of MOVING axes keeps the agreement and frees their DEMANDs; other records stay (R88). -/
theorem Hub.suspend_motionAgrees (vs : List Axis) (hm : h.motionAgrees) (hn : vs.Nodup)
    (hv : ∀ v ∈ vs, (h.record v).state = .moving) :
    (h.suspend vs).motionAgrees ∧ (h.suspend vs).arbiter.inUse + (vs.map h.demand).sum = h.arbiter.inUse ∧
      (h.suspend vs).params = h.params ∧ ∀ b, b ∉ vs → (h.suspend vs).record b = h.record b := by
  obtain ⟨⟨h1, h2, h3⟩, hu, hp, ho⟩ := Hub.pauses_agreeWith vs (q := h.arbiter.queue) hm hn hv
  obtain ⟨q, hq, e⟩ := Hub.enqueues_eq vs.reverse (vs.foldl Hub.pause h)
  have entry : (vs.foldl Hub.pause h).resumeEntry = h.resumeEntry := funext fun b => by simp [Hub.resumeEntry, hp]
  rw [Hub.pauses_queue, entry] at hq
  rw [Hub.suspend, e]
  exact ⟨⟨h1, h2.perm (hq.trans (((List.reverse_perm vs).map _).append_right _)), h3⟩, hu, hp, ho⟩

/-! #### Pre-emption -/

theorem Hub.victims_sublist (need : Nat) (l : List Axis) (freed : Nat) : (h.victims need l freed).Sublist l := by
  induction l generalizing freed with
  | nil => exact List.Sublist.refl _
  | cons v l ih =>
    unfold Hub.victims
    split
    · exact List.nil_sublist _
    · exact (ih _).cons_cons v

/-- The victims free enough, when all that may be paused would (R88). -/
theorem Hub.victims_suffice (need : Nat) (l : List Axis) (freed : Nat)
    (hl : need + h.arbiter.inUse ≤ h.params.flowBudget + freed + (l.map h.demand).sum) :
    need + h.arbiter.inUse ≤ h.params.flowBudget + freed + ((h.victims need l freed).map h.demand).sum := by
  induction l generalizing freed with
  | nil => exact hl
  | cons v l ih =>
    unfold Hub.victims
    split
    · simpa
    · rw [List.map_cons, List.sum_cons] at hl ⊢
      have := ih (freed + h.demand v) (by omega)
      omega

theorem Hub.preempt_motionAgrees (a : Axis) (hm : h.motionAgrees) (ha : (h.record a).state = .claimed)
    (hf : h.demand a + h.arbiter.inUse ≤ h.params.flowBudget + (h.pausable.map h.demand).sum) :
    ((h.suspend (h.victims (h.demand a) h.pausable 0)).grant a).motionAgrees := by
  have hsub := Hub.victims_sublist (h := h) (h.demand a) h.pausable 0
  have hn : h.pausable.Nodup := (List.reverse_perm _).nodup_iff.mpr (hm.granted_nodup.filter _)
  have hv : ∀ v ∈ h.victims (h.demand a) h.pausable 0, (h.record v).state = .moving := fun v hv =>
    (hm.granted_iff v).mp (List.mem_filter.mp (List.mem_reverse.mp (hsub.subset hv))).1
  have enough := Hub.victims_suffice (h := h) (h.demand a) h.pausable 0 (by simpa using hf)
  obtain ⟨hs, hu, hp, ho⟩ := Hub.suspend_motionAgrees _ hm (hn.sublist hsub) hv
  refine Hub.grant_motionAgrees a hs ?_ (decide_eq_true ?_)
  · rw [ho a fun hmem => by simpa [ha] using hv a hmem]; exact ha
  · rw [Hub.demand, hp]
    change h.demand a + _ ≤ _
    omega

/-! #### Time -/

theorem PerAxis.get_tick (p : PerAxis AxisRecord) (a : Axis) : p.tick.get a = (p.get a).tick := by cases a <;> rfl

theorem Hub.record_passTime (h : Hub) (a : Axis) : h.passTime.record a = (h.record a).tick := PerAxis.get_tick ..

theorem AxisRecord.tick_state (x : AxisRecord) : x.tick.state = x.state := by unfold AxisRecord.tick; split <;> rfl

theorem AxisRecord.Agrees.tick {y : AxisRecord} {d : Nat} (hy : y.Agrees d) : y.tick.Agrees d := by
  unfold AxisRecord.tick
  split
  · exact hy
  · rename_i hs; exact ⟨hy.held, fun e => absurd e hs, hy.2.2⟩

theorem Hub.passTime_motionAgrees (hm : h.motionAgrees) : h.passTime.motionAgrees := by
  obtain ⟨hr, ⟨hn, he, hc⟩, ⟨hg, hmov, hf⟩, hrest⟩ := hm
  have state (a : Axis) : (h.passTime.record a).state = (h.record a).state := by
    rw [Hub.record_passTime, AxisRecord.tick_state]
  refine ⟨fun a => ?_, ⟨?_, fun a => ?_, fun e hm => ?_⟩, ⟨hg, fun a => by rw [state]; exact hmov a, hf⟩,
    fun hm a => by rw [state]; exact hrest hm a⟩
  · rw [Hub.record_passTime]; exact AxisRecord.Agrees.tick (hr a)
  · simpa [Hub.passTime, Function.comp_def] using hn
  · rw [state, ← he]
    constructor
    · rintro ⟨e, hm, ha⟩
      obtain ⟨f, hf, rfl⟩ := List.mem_map.mp hm
      exact ⟨f, hf, ha⟩
    · rintro ⟨f, hf, ha⟩
      exact ⟨{ f with left := f.left - 1 }, List.mem_map.mpr ⟨f, hf, rfl⟩, ha⟩
  · obtain ⟨f, hf, rfl⟩ := List.mem_map.mp hm
    rw [state]; exact hc f hf

end

/-! ### The flow pool -/

/-- A part at rest agrees: every axis IDLE, nothing granted and nothing queued (R17). -/
theorem Hub.motionAgrees_of_reset {h : Hub} (hc : h.claims = .reset) (ha : h.arbiter = .reset) : h.motionAgrees := by
  have idle (a : Axis) : h.record a = .reset := by simp [Hub.record, hc, ClaimTable.reset]
  refine ⟨fun a => ?_, ⟨?_, fun a => ?_, ?_⟩, ⟨?_, fun a => ?_, ?_, ?_⟩, fun _ a => ?_⟩ <;>
    simp [idle, ha, AxisRecord.reset, Arbiter.reset]

theorem motionAgrees_motionInvariant : MotionInvariant Hub.motionAgrees where
  same {h k} hm hk := by
    obtain ⟨hr, hq, hf, hrest⟩ := hm
    have claims : k.claims = h.claims := congrArg MotionPart.claims hk
    have arbiter : k.arbiter = h.arbiter := congrArg MotionPart.arbiter hk
    have pd : k.params.demand = h.params.demand := congrArg MotionPart.demand hk
    have demand : k.demand = h.demand := funext fun a => by simp [Hub.demand, pd]
    have budget : k.params.flowBudget = h.params.flowBudget := congrArg MotionPart.flowBudget hk
    have mode : k.control.mode = h.control.mode := congrArg MotionPart.mode hk
    simp only [Hub.motionAgrees, Hub.recordsAgree, Hub.queueAgrees, Hub.flowAgrees, Hub.restsOutsideRun, Hub.record,
      claims, arbiter, demand, budget, mode]
    exact ⟨hr, hq, hf, hrest⟩
  restarted _ _ := Hub.motionAgrees_of_reset rfl rfl
  edit h a x hm hx := by
    have T : h.Turns (h.setRecord a x) a x := ⟨fun b => h.record_setRecord a b x, rfl, rfl, rfl⟩
    have hr := hm.record a
    refine T.motionAgrees_same hm ⟨?_, fun hs => ?_, ?_⟩ (by rw [hx.state]) (by rw [hx.state]) (by rw [hx.state])
      (fun hn => by rw [hx.state]; exact hm.rests hn a) rfl
    · rw [hx.state, hx.held]; exact hr.held
    · rw [hx.state] at hs
      rw [hx.lease (hr.held.mp hs)]; exact hr.lease hs
    · rw [hx.flow, hx.state]; exact hr.2.2
  claim h a r hm hrun hs := by
    have T := fun x => (⟨fun b => h.record_setRecord a b x, rfl, rfl, rfl⟩ : h.Turns (h.setRecord a x) a x)
    have resting := (hm.record a).flow_resting (by simp [hs])
    exact (T _).motionAgrees_same hm ⟨by simp, by simp, by simpa using resting⟩ (by simp [hs]) (by simp [hs])
      (by simp [hs]) (absurd hrun) rfl
  endMotion _ a c hm ha := Hub.endMotion_motionAgrees a c hm ha
  endEntry h a c hm he := by
    rw [Hub.dequeue_endMotion a c hm]
    exact Hub.endMotion_motionAgrees a c hm (by rcases hm.entry_state he with e | e <;> simp [e])
  dropClaim _ a c hm := Hub.dropClaim_motionAgrees a c hm
  grant _ a hm ha hf := Hub.grant_motionAgrees a hm ha hf
  grantFromQueue _ a hm he hf := Hub.grantFromQueue_motionAgrees a hm he hf
  queueMotion _ a c hm ha := Hub.queueMotion_motionAgrees a c hm ha
  preempt _ a hm ha hf := Hub.preempt_motionAgrees a hm ha hf
  setMode h m hm hi := by
    obtain ⟨hr, hq, hf, hrest⟩ := hm
    refine ⟨hr, hq, hf, fun hn a => ?_⟩
    by_cases hrun : h.control.mode = .run
    · exact hi hn hrun a
    · exact hrest hrun a
  setParams h q hm hn := by
    obtain ⟨hr, hq, ⟨hg, hmov, hsum, _⟩, hrest⟩ := hm
    have idle := hrest hn
    have nobody : h.arbiter.grantOrder = [] :=
      List.eq_nil_iff_forall_not_mem.mpr fun a ha => by simpa [idle a] using (hmov a).mp ha
    have unused : h.arbiter.inUse = 0 := by rw [hsum, nobody]; rfl
    refine ⟨fun a => ⟨(hr.record a).held, (hr.record a).lease, ?_⟩, hq, ⟨hg, hmov, ?_, ?_⟩, hrest⟩
    · have resting : (h.record a).state ≠ .moving := by simp [idle a]
      exact ((hr.record a).flow_resting resting).trans (if_neg resting).symm
    · change h.arbiter.inUse = _
      rw [unused, nobody]; rfl
    · change h.arbiter.inUse ≤ _
      rw [unused]; exact Nat.zero_le _
  passTime _ hm := Hub.passTime_motionAgrees hm

/-- Settles O53: the claim table with the flow pool, and the bands of the queue, are each kept by every operation on the motion
part, and so by every step. -/
theorem stepKeepsMotionAndFlow : Obligations.StepKeepsMotionAndFlow :=
  ⟨fun _ _ => motionAgrees_motionInvariant.step
      (fun l => Hub.motionAgrees_of_reset (powerOnHub_rests l).1 (powerOnHub_rests l).2) fun _ _ hm => hm,
    fun _ _ => bandsAgree_motionInvariant.step (fun l => Hub.bandsAgree_of_reset (powerOnHub_rests l).2)
      fun _ _ hb => hb⟩

end Sys2Proof.Machine

namespace Sys2Proof.Machine

open Says

/-! ### Ring counts -/

/-- Settles O9: each count is `Hub.ringCount` or `Hub.ringIndexCount`, branch by branch. -/
theorem ringCountsAreTaken : Obligations.RingCountsAreTaken := by
  refine ⟨fun s => ?_, fun s => ?_⟩
  · change s.event Hub.ringCount = _
    unfold Hub.ringCount
    cases hr : s.hub.sampler.ringReferenced with
    | false => simp [took, hr]
    | true =>
      have lt : s.hub.sampler.ringPosition + 1 < Config.ringCounts ↔ s.hub.sampler.ringPosition < 719 := by
        simp only [Config.ringCounts]; omega
      by_cases hp : s.hub.sampler.ringPosition < 719 <;> simp [took, hr, lt, hp]
  · change s.event Hub.ringIndexCount = _
    unfold Hub.ringIndexCount
    by_cases hp : s.hub.sampler.ringReferenced = true ∧ 360 ≤ s.hub.sampler.ringPosition <;> simp [took, hp]

/-! ### Reads -/

/-- An axis's own code names it (R178). -/
theorem argAxis_axisCode (a : Axis) : argAxis (axisCode a) = some a := by cases a <;> decide

/-- A code above 5 names no axis (R178). -/
theorem argAxis_eq_none {b : Byte} (hb : 5 < b.toNat) : argAxis b = none := by
  unfold argAxis Axis.ofNumber
  split <;> first | omega | rfl

/-- The bale queue as BALE_READ lists it: the records that are present, downstream first (R120). -/
theorem Tracker.queue_chars (t : Tracker) :
    t.queue.map (fun p => p.2.chars (some p.1)) =
      (t.table.map (Bale.chars (some .table))).toList ++ (t.cradle.map (Bale.chars (some .cradle))).toList
        ++ (t.chamber.map (Bale.chars (some .chamber))).toList := by
  unfold Tracker.queue
  cases t.table <;> cases t.cradle <;> cases t.chamber <;> rfl

/-- The result of BALE_READ, with the records written out one after another (R120). -/
theorem Hub.baleData_eq (h : Hub) :
    h.baleData =
      u8 (h.tracker.queue.map (fun p => p.2.chars (some p.1))).length
        ++ (h.tracker.queue.map (fun p => p.2.chars (some p.1))).flatten ++ u8 h.tracker.log.length
        ++ u16 h.tracker.nextNumber ++ u8 (if h.tracker.transit.isSome then 1 else 0) ++ u16 (h.tracker.transit.getD 0)
        ++ u8 (if h.tracker.feedHold then 1 else 0)
        ++ u8 ((if h.inputs.prechamberFull then 1 else 0) + (if h.inputs.cradleLoad then 2 else 0)
          + (if h.inputs.tableLoad then 4 else 0)) := by
  unfold Hub.baleData
  cases ht : h.tracker.transit <;> simp [List.flatMap_def, flagBit, bool8, ht]

/-- The result of AXIS_READ: the ring reference stands for RING alone, the slope for TILT alone (R18, R181). -/
theorem Hub.axisData_tail (h : Hub) (a : Axis) :
    bool8 (a == .ring && h.sampler.ringReferenced) ++ bool8 (a == .tilt && h.sampler.sampledSlopeValid)
        ++ s16 (if a = .tilt then h.sampler.sampledSlope else 0) =
      (if a = .ring then bool8 h.sampler.ringReferenced else [0#8])
        ++ (if a = .tilt then bool8 h.sampler.sampledSlopeValid ++ s16 h.sampler.sampledSlope else [0#8, 0#8, 0#8]) := by
  have low : bool8 false = [0#8] := by decide
  have zero : s16 0 = [0#8, 0#8] := by decide
  have same (b c : Axis) : (b == c) = decide (b = c) := rfl
  cases a <;> simp [same, low, zero]

/-- Settles O18: each read answers with its data and leaves the part; AXIS_READ of no axis is BAD_VALUE. -/
theorem readsChangeNothing : Obligations.ReadsChangeNothing := by
  refine ⟨fun s r => ⟨fun axis hb => ?_, fun a => ?_⟩, fun s r => rfl, fun s r => ?_, fun s r => rfl⟩
  · change s.item 0x18#8 (axisReadItem r axis) = _
    simp [axisReadItem, argAxis_eq_none hb, replied, took, Hub.answered, Answer.bare]
  · change s.item 0x18#8 (axisReadItem r (axisCode a)) = _
    simp only [State.item_eq, axisReadItem, argAxis_axisCode, replied, took, Hub.answered, Hub.axisData]
    have tail := s.hub.axisData_tail a
    simp only [List.append_assoc] at tail ⊢
    rw [tail]
    rfl
  · change s.item 0x28#8 (baleReadItem r) = _
    simp only [State.item_eq, baleReadItem, Hub.baleData_eq, Tracker.queue_chars]
    rfl

/-! ### The state right after reset -/

@[simp] theorem Hub.reset_record (a : Axis) : State.reset.hub.record a = .reset := PerAxis.get_all ..

@[simp] theorem Hub.reset_valves (a : Axis) : State.reset.hub.claims.valves.get a = .off := PerAxis.get_all ..

@[simp] theorem Hub.reset_notices (r : Role) : State.reset.hub.notices.get r = .reset := PerRole.get_all ..

@[simp] theorem Hub.reset_sense (a : Axis) :
    State.reset.hub.sense a = { raw := 0, position := 0, valid := false, zone := .unknown } := PerAxis.get_all ..

@[simp] theorem Hub.reset_map (a : Axis) : State.reset.hub.map.get a = .reset := PerAxis.get_all ..

/-- No place holds a record at reset (R99). -/
theorem Tracker.reset_at (p : Place) : State.reset.hub.tracker.at p = none := by cases p <;> rfl

/-- Settles O51: every invariant at reset, each from the value reset gives its block. -/
theorem resetIsSound : Obligations.ResetIsSound := by
  refine ⟨fun r => ?_, fun a => ?_, ?_, rfl, fun p b hb => ?_, ?_, ?_, ⟨fun p b hb => ?_, ?_, ?_⟩,
    Hub.motionAgrees_of_reset rfl rfl, Hub.bandsAgree_of_reset rfl, fun a ha => ?_, fun a => ?_, ?_, ?_⟩
  · simp [NoticePort.reset, NoticePort.lineOf]
  · simp [AxisRecord.reset]
  · unfold Hub.latchAgrees; decide
  · simp [Tracker.reset_at] at hb
  · exact Nat.zero_le _
  · unfold Tracker.numbersAgree; decide
  · simp [Tracker.reset_at] at hb
  · intro b hb; cases hb
  · decide
  · simp [AxisRecord.reset] at ha
  · simp
  · refine ⟨by decide, fun a => ?_, by decide, by decide, by decide, by decide, by decide, by decide, by decide, by decide,
      by decide⟩
    cases a <;> decide
  · intro hm; cases hm

end Sys2Proof.Machine

namespace Sys2Proof.Machine

open Says

/-! ### The inclinometer -/

/-- The unit of 0.1 % nearest to a duty, where no tie leaves it free (R12; log 5). -/
theorem dutyOf_eq {high period duty : Nat} (h1 : 2 * duty * period < 2000 * high + period)
    (h2 : 2000 * high < 2 * duty * period + period) : dutyOf high period = duty := by
  have hp : 0 < period := by omega
  have split : period * (1000 * high / period) + 1000 * high % period = 1000 * high := Nat.div_add_mod ..
  have hr : 1000 * high % period < period := Nat.mod_lt _ hp
  have scaled : 2 * duty * period = 2 * (period * duty) := by rw [Nat.mul_assoc, Nat.mul_comm duty]
  rw [scaled] at h1 h2
  unfold dutyOf
  dsimp only
  generalize 1000 * high / period = q at split ⊢
  generalize 1000 * high % period = r at split hr ⊢
  have below : q ≤ duty := Nat.not_lt.mp fun hd => by
    have := Nat.mul_le_mul_left period (show duty + 1 ≤ q from hd)
    rw [Nat.mul_add] at this
    omega
  have above : duty ≤ q + 1 := Nat.not_lt.mp fun hd => by
    have := Nat.mul_le_mul_left period (show q + 2 ≤ duty from hd)
    rw [Nat.mul_add] at this
    omega
  rcases Nat.lt_or_ge q duty with hd | hd
  · obtain rfl : duty = q + 1 := Nat.le_antisymm above hd
    rw [Nat.mul_add] at h1 h2
    rw [if_neg (by omega), if_pos (by omega)]
  · obtain rfl : duty = q := Nat.le_antisymm hd below
    rw [if_pos (by omega)]

/-- The period as the model spoils it and as the statement does. -/
theorem Period.spoilt_eq (p : Period) : p.spoilt = Says.spoilt p := by cases p <;> rfl

/-- A falling edge divides the period in progress and does nothing else (R12). -/
theorem Sampler.fallingEdge_eq (m : Sampler) (elapsed : Nat) :
    m.fallingEdge elapsed = { m with period := divided elapsed m.period } := by
  unfold Sampler.fallingEdge
  cases m.period <;> rfl

/-- A rising edge that ends no measurable period begins the next and does nothing else (R12). -/
theorem Sampler.risingEdge_unmeasured (m : Sampler) (elapsed : Nat) (hp : ∀ high, m.period ≠ .lowPart high false) :
    m.risingEdge elapsed = { m with period := .highPart false } := by
  unfold Sampler.risingEdge
  split
  · exact absurd ‹_› (hp _)
  all_goals rfl

/-- A rising edge that ends a measurable period takes its duty (R12). -/
theorem Sampler.risingEdge_measured (m : Sampler) {high elapsed duty : Nat} (hp : m.period = .lowPart high false)
    (h1 : 2 * duty * (high + elapsed) < 2000 * high + (high + elapsed))
    (h2 : 2000 * high < 2 * duty * (high + elapsed) + (high + elapsed)) :
    m.risingEdge elapsed = { m with
      slope := if 100 ≤ duty ∧ duty ≤ 900 then (duty : Int) - 500 else m.slope,
      slopeValid := if 100 ≤ duty ∧ duty ≤ 900 then true else false,
      period := .highPart false } := by
  have hne : ¬ high + elapsed = 0 := by omega
  simp only [Sampler.risingEdge, hp, if_neg hne, Sampler.measure, dutyOf_eq h1 h2]
  split <;> rfl

/-- An edge within 100 ms restarts the edge timer after its own effect (R13). -/
theorem Sampler.inclinometerEdge_inTime (m : Sampler) (rising : Bool) {elapsed : Nat} (he : elapsed ≤ 100000) :
    m.inclinometerEdge rising elapsed =
      { (if rising then m.risingEdge elapsed else m.fallingEdge elapsed) with edgeTimer := .running 10 } := by
  have hle : ¬ Config.edgeTimerMicros < elapsed := Nat.not_lt.mpr he
  simp only [Sampler.inclinometerEdge, if_neg hle]
  rfl

/-- A spoilt period is not measurable. -/
theorem Period.spoilt_ne (p : Period) (high : Nat) : p.spoilt ≠ .lowPart high false := by cases p <;> simp [Period.spoilt]

/-- What a late edge finds: the expiry taken, where the timer still ran, and the period spoilt (R12, R13; log 6). -/
theorem Sampler.inclinometerEdge_late (m : Sampler) {elapsed : Nat} (he : 100000 < elapsed) :
    m.inclinometerEdge true elapsed =
        { m.edgeTimeout with period := .highPart false, edgeTimer := .running 10 } ∧
      m.inclinometerEdge false elapsed =
        { m.edgeTimeout with period := divided elapsed (Says.spoilt m.period), edgeTimer := .running 10 } := by
  have hlt : Config.edgeTimerMicros < elapsed := he
  constructor
  · simp only [Sampler.inclinometerEdge, if_pos hlt, if_true]
    rw [Sampler.risingEdge_unmeasured _ _ fun high => Period.spoilt_ne _ high]
    rfl
  · simp only [Sampler.inclinometerEdge, if_pos hlt, Sampler.fallingEdge_eq, Period.spoilt_eq, Bool.false_eq_true, if_false]
    rfl

theorem Sampler.edgeTimeout_running (m : Sampler) {left : Nat} (ht : m.edgeTimer = .running left) :
    m.edgeTimeout = { m with edgeTimer := .ranOut, slopeValid := false, period := Says.spoilt m.period } := by
  simp only [Sampler.edgeTimeout, ht, Period.spoilt_eq]

theorem Sampler.edgeTimeout_idle (m : Sampler) (ht : m.edgeTimer = .ranOut ∨ m.edgeTimer = .stopped) :
    m.edgeTimeout = m := by
  rcases ht with ht | ht <;> simp only [Sampler.edgeTimeout, ht]

theorem exec_inclinometerEdge (s : State) (rising : Bool) (elapsed : Nat) :
    exec (.inclinometerEdge rising elapsed) s =
      took s { s.hub with sampler := s.hub.sampler.inclinometerEdge rising elapsed } := rfl

/-- Settles O10: an edge by the part of the period it finds and by whether it comes in time, and the edge timer. -/
theorem inclinometerIsTaken : Obligations.InclinometerIsTaken := by
  refine ⟨?_, ?_, ?_, ?_⟩
  · intro s high elapsed duty hp h0 he h1 h2
    rw [exec_inclinometerEdge, Sampler.inclinometerEdge_inTime _ _ he, if_pos rfl,
      Sampler.risingEdge_measured _ hp h1 h2]
  · intro s elapsed he
    refine ⟨?_, fun hp => ?_⟩
    · rw [exec_inclinometerEdge, Sampler.inclinometerEdge_inTime _ _ he, if_neg (by simp), Sampler.fallingEdge_eq]
    · rw [exec_inclinometerEdge, Sampler.inclinometerEdge_inTime _ _ he, if_pos rfl, Sampler.risingEdge_unmeasured _ _ hp]
  · intro s elapsed he
    obtain ⟨rising, falling⟩ := s.hub.sampler.inclinometerEdge_late he
    refine ⟨fun ⟨left, ht⟩ => ?_, fun ht => ?_⟩
    · rw [exec_inclinometerEdge, exec_inclinometerEdge, rising, falling, Sampler.edgeTimeout_running _ ht]
      exact ⟨rfl, rfl⟩
    · rw [exec_inclinometerEdge, exec_inclinometerEdge, rising, falling, Sampler.edgeTimeout_idle _ ht]
      exact ⟨rfl, rfl⟩
  · intro s left ht
    change took s { s.hub with sampler := s.hub.sampler.edgeTimeout } = _
    rw [Sampler.edgeTimeout_running _ ht]

/-! ### Power-on and the output pins -/

/-- A command always answers next, with the queue and the counter of choices as they were. -/
theorem exec_next (c : Instr) (s : State) : ∃ h, exec c s = .next { s with hub := h } := by cases c <;> exact ⟨_, rfl⟩

/-- STOP_LATCHED posted to the empty sets of power-on (R150, R157): nothing is enabled, so no line becomes active. -/
theorem NoticePort.reset_post (n : Notice) : NoticePort.reset.post n = ⟨n.bit, 0#17, false⟩ := by
  simp [NoticePort.post, NoticePort.settle, NoticePort.reset, NoticePort.lineOf]

theorem powerOnHub_closed (l : Levels) (hl : l.stop = false) : powerOnHub l = { State.reset.hub with inputs := l } := by
  simp only [powerOnHub, hl]; rfl

theorem powerOnHub_open (l : Levels) (hl : l.stop = true) :
    powerOnHub l = { State.reset.hub with
      inputs := l,
      control := { mode := .stopped, stopLatch := true, mapChecked := false, lastReset := .powerOn, restartPending := false },
      notices := .all (NoticePort.reset.post .stopLatched) } := by
  obtain ⟨pre, cra, tab, net, ba, bb, stop⟩ := l
  obtain rfl : stop = true := hl
  rfl

/-- The levels of the pins by role (R183). -/
theorem Hub.pins_attention (h : Hub) (hs : h.sampler.sampled = true) (r : Role) :
    h.pins.attention.get r = !(h.notices.get r).line := by
  rw [h.pins_of_sampled hs]; cases r <;> rfl

/-- A suspension of motions leaves the sampler. -/
theorem Hub.suspend_sampler (h : Hub) (vs : List Axis) : (h.suspend vs).sampler = h.sampler := by
  have paused (l : List Axis) (k : Hub) : (l.foldl Hub.pause k).sampler = k.sampler := by
    induction l generalizing k with
    | nil => rfl
    | cons v l ih => rw [List.foldl_cons, ih, Hub.pause_sampler]
  obtain ⟨q, -, e⟩ := Hub.enqueues_eq vs.reverse (vs.foldl Hub.pause h)
  rw [Hub.suspend, e]
  exact paused vs h

/-- No operation on a motion says whether a sample has been taken (R183). -/
theorem sampled_motionInvariant (b : Bool) : MotionInvariant fun h => h.sampler.sampled = b where
  same {h k} hb hk := (show k.sampler.sampled = h.sampler.sampled from congrArg MotionPart.sampled hk).trans hb
  restarted _ hb := hb
  edit _ _ _ hb _ := hb
  claim _ _ _ hb _ _ := hb
  endMotion _ _ _ hb _ := by simpa using hb
  endEntry _ _ _ hb _ := by simpa using hb
  dropClaim _ _ _ hb := by simpa using hb
  grant _ _ hb _ _ := by simpa using hb
  grantFromQueue _ _ hb _ _ := by simpa using hb
  queueMotion _ _ _ hb _ := hb
  preempt _ _ hb _ _ := by simpa [Hub.suspend_sampler] using hb
  setMode _ _ hb _ := hb
  setParams _ _ hb _ := hb
  passTime _ hb := hb

theorem powerOnHub_sampled (l : Levels) : (powerOnHub l).sampler.sampled = false := by
  unfold powerOnHub
  dsimp only
  split
  · simp [Hub.stopInputActive, Hub.postAll, Hub.reset, ModeControl.reset, Sampler.reset]
  · rfl

theorem pinsFollowTheState_holds : pinsFollowTheState := by
  refine ⟨fun h hs => ⟨?_, ?_, fun r => ?_⟩, fun h hs => ?_, fun s l => ⟨_, rfl, powerOnHub_sampled l⟩,
    fun s volts => ⟨_, rfl, ?_⟩, fun s c hon hs => ?_⟩
  · rw [h.pins_of_sampled hs]
  · rw [h.pins_of_sampled hs]
  · rw [h.pins_attention hs]; simp
  · rw [h.pins_before_a_sample hs]
    exact ⟨fun a => PerAxis.get_all .., rfl, fun r => PerRole.get_all ..⟩
  · exact (sampled_motionInvariant true).sample volts (Hub.capture_sampled ..)
  · obtain ⟨k, hk⟩ := exec_next c s
    exact ⟨_, hk, (sampled_motionInvariant _).exec hon hs rfl hk⟩

theorem resetState_holds : resetState := by
  refine ⟨fun a => ⟨Hub.reset_record a, Hub.reset_valves a⟩, fun a => ?_, rfl, rfl, rfl, fun a => ?_, rfl, rfl, rfl,
    Hub.reset_notices, fun a => ?_, rfl, rfl, rfl, rfl, rfl, rfl, rfl, rfl, rfl, rfl, rfl, rfl, fun r => ?_, rfl, rfl⟩
  · simp
  · rw [Hub.reset_map]
    exact ⟨rfl, Zone.forall_of rfl rfl rfl rfl rfl rfl rfl rfl rfl⟩
  · cases a <;> exact ⟨rfl, rfl, rfl, rfl⟩
  · exact PerRole.get_all ..

/-- Settles O5: power-on by the level of the stop chain, the values at reset, and the pins. -/
theorem powerOnAndReset : Obligations.PowerOnAndReset := by
  refine ⟨fun s l hl => ?_, fun s l hl => ?_, resetState_holds, pinsFollowTheState_holds⟩
  · change took s (powerOnHub l) = _
    rw [powerOnHub_closed l hl]
  · change took s (powerOnHub l) = _
    rw [powerOnHub_open l hl, NoticePort.reset_post]
    rfl

/-! ### Time on an empty queue -/

/-- Something due is chosen whenever something is due, whatever the free value (log 3). -/
theorem chooseDue_mem (n : Nat) {l : List Instr} (hl : l ≠ []) : ∃ c, c ∈ l ∧ chooseDue n l = some c := by
  match l with
  | [] => exact absurd rfl hl
  | [c] => exact ⟨c, List.mem_singleton_self c, rfl⟩
  | c :: d :: rest =>
    have hlt : Config.dueChoice n % (rest.length + 2) < (c :: d :: rest).length := Nat.mod_lt _ (by simp)
    exact ⟨_, List.getElem_mem hlt, List.getElem?_eq_getElem hlt⟩

/-- A command is due exactly when its timer has run out, or the second is full. -/
theorem Hub.mem_dueCommands (h : Hub) (c : Instr) : c ∈ h.dueCommands ↔
    (∃ a, c = .leaseExpiry a ∧ (h.record a).state ≠ .idle ∧ (h.record a).lease = 0) ∨
    (∃ e, e ∈ h.arbiter.queue ∧ e.left = 0 ∧ c = .waitTimeout e.axis) ∨
    (c = .netStartTimeout ∧ h.counter.startTimer = some 0) ∨ (c = .netGapTimeout ∧ h.counter.gapTimer = some 0) ∨
    (c = .transitTimeout ∧ h.tracker.transit = some 0) ∨
    (c = .inclinometerTimeout ∧ h.sampler.edgeTimer = .running 0) ∨ (c = .fieldClockTick ∧ 100 ≤ h.clock.phase) := by
  have every (a : Axis) : a ∈ Axis.list := by cases a <;> decide
  have when (p : Prop) [Decidable p] (x : Instr) : c ∈ (if p then [x] else []) ↔ c = x ∧ p := by split <;> simp_all
  simp only [Hub.dueCommands, List.mem_append, when, List.mem_map, List.mem_filter, every, decide_eq_true_eq, true_and,
    or_assoc]
  refine or_congr ⟨?_, ?_⟩ (or_congr ⟨?_, ?_⟩ Iff.rfl)
  · rintro ⟨a, ha, rfl⟩; exact ⟨a, rfl, ha⟩
  · rintro ⟨a, rfl, ha⟩; exact ⟨a, ha, rfl⟩
  · rintro ⟨e, ⟨hm, he⟩, rfl⟩; exact ⟨e, hm, he, rfl⟩
  · rintro ⟨e, hm, he, rfl⟩; exact ⟨e, ⟨hm, he⟩, rfl⟩

/-- The part after 10 ms, before the stopwatch has run them. -/
def Hub.countTimers (h : Hub) : Hub :=
  { h.passTime with
    counter := { h.counter with startTimer := countDown h.counter.startTimer, gapTimer := countDown h.counter.gapTimer },
    tracker := { h.tracker with transit := countDown h.tracker.transit },
    sampler := { h.sampler with edgeTimer := h.sampler.edgeTimer.tick },
    clock := { h.clock with phase := h.clock.phase + 1 } }

theorem Hub.tick_eq (h : Hub) : h.tick = h.countTimers.stopwatchTick := rfl

/-- What 10 ms do besides the stopwatch's own work (R115). -/
theorem Hub.tick_frame (h : Hub) :
    { h.tick with
      notices := h.notices,
      tracker := { h.tick.tracker with cradle := h.tracker.cradle, stopwatch := h.tracker.stopwatch } } = h.countTimers :=
  h.countTimers.stopwatchTick_frame

/-- A bale whose wait is at the limit is marked and, when it was not marked before, posted (R116). -/
theorem Hub.lateCheck_running (h : Hub) {w : Stopwatch} {b : Bale} {n : Nat} (hw : h.tracker.stopwatch = some w)
    (hb : h.tracker.cradle = some b) (hn : b.cradleWait = some n) :
    h.lateCheck.tracker.stopwatch = some w ∧
      h.lateCheck.tracker.cradle =
        some { b with flags := { b.flags with tableLate := b.flags.tableLate || decide (w.limit ≤ n) } } ∧
      (w.limit ≤ n → b.flags.tableLate = false → ∀ r, posted h.lateCheck .tableLate r) := by
  have wait : b.cradleWait.getD 0 = n := by rw [hn]; rfl
  simp only [Hub.lateCheck, hw, hb, wait]
  by_cases hl : w.limit ≤ n ∧ b.flags.tableLate = false
  · rw [if_pos hl]
    exact ⟨by simp [Hub.postAll], by simp [Hub.postAll, hl], fun _ _ r => posted_postAll _ _ r⟩
  · rw [if_neg hl]
    refine ⟨hw, ?_, fun h1 h2 => absurd ⟨h1, h2⟩ hl⟩
    have flag : (b.flags.tableLate || decide (w.limit ≤ n)) = b.flags.tableLate := by
      cases hf : b.flags.tableLate with
      | true => rfl
      | false => simpa using fun hle => hl ⟨hle, hf⟩
    rw [flag, hb]

/-- Without a bale that reaches the limit unmarked, nothing is posted (R116). -/
theorem Hub.lateCheck_quiet (h : Hub)
    (hq : ∀ w b, h.tracker.stopwatch = some w → h.tracker.cradle = some b →
      ¬ (w.limit ≤ b.cradleWait.getD 0 ∧ b.flags.tableLate = false)) : h.lateCheck = h := by
  unfold Hub.lateCheck
  split
  · rename_i w b hw hb; exact if_neg (hq w b hw hb)
  · rfl

/-- The second of a stopwatch that is not full goes on (R115). -/
theorem Hub.stopwatchTick_within (h : Hub) {w : Stopwatch} (hw : h.tracker.stopwatch = some w) (hp : w.phase < 99) :
    h.stopwatchTick = { h with tracker := { h.tracker with stopwatch := some { w with phase := w.phase + 1 } } } := by
  have hlt : w.phase + 1 < Config.unitsPerSecond := by simp only [Config.unitsPerSecond]; omega
  simp only [Hub.stopwatchTick, hw, if_pos hlt]

/-- At a full second the cradle wait rises and is compared with the limit (R115, R116). -/
theorem Hub.stopwatchTick_second (h : Hub) {w : Stopwatch} (hw : h.tracker.stopwatch = some w) (hp : ¬ w.phase < 99) :
    h.stopwatchTick = { h with tracker := { h.tracker with
      stopwatch := some { w with phase := 0 }, cradle := h.tracker.cradle.map Bale.waitSecond } }.lateCheck := by
  have hlt : ¬ w.phase + 1 < Config.unitsPerSecond := by simp only [Config.unitsPerSecond]; omega
  simp only [Hub.stopwatchTick, hw, if_neg hlt]

/-- 10 ms post nothing but the notice of a bale that reaches the limit (R116). -/
theorem Hub.stopwatchTick_quiet (h : Hub)
    (hq : ¬ ∃ w b, h.tracker.stopwatch = some w ∧ h.tracker.cradle = some b ∧ 99 ≤ w.phase ∧
      b.flags.tableLate = false ∧ w.limit ≤ min (b.cradleWait.getD 0 + 1) 65535) : h.stopwatchTick.notices = h.notices := by
  cases hw : h.tracker.stopwatch with
  | none => simp only [Hub.stopwatchTick, hw]
  | some w =>
    by_cases hp : w.phase < 99
    · rw [h.stopwatchTick_within hw hp]
    · rw [h.stopwatchTick_second hw hp, Hub.lateCheck_quiet]
      intro v c hv hc hl
      obtain ⟨b, hb, rfl⟩ := Option.map_eq_some_iff.mp hc
      cases hv
      exact hq ⟨w, b, hw, hb, by omega, hl.2, hl.1⟩

theorem tenMillisecondsPass_holds : tenMillisecondsPass := by
  intro s hp hd
  have idle : step s = s.idle := by
    unfold step
    simp only [hp, hd, chooseDue]
  have frame := s.hub.tick_frame
  have field {α : Type} (g : Hub → α) := congrArg g frame
  refine ⟨{ s with hub := s.hub.tick }, idle, hp, fun a => ?_, ?_, ?_, ?_, fun w b n hw hb hn => ?_, fun hq => ?_, ?_, ?_, ?_,
    ?_, ?_, ?_⟩
  · refine (field fun k => k.record a).trans ?_
    rw [show s.hub.countTimers.record a = s.hub.passTime.record a from rfl, Hub.record_passTime]; rfl
  · exact field fun k => k.arbiter.queue
  · exact field Hub.counter
  · exact field fun k => k.tracker.transit
  · rw [Hub.tick_eq]
    split
    · rename_i hlt
      rw [Hub.stopwatchTick_within (h := s.hub.countTimers) hw hlt]
      exact ⟨rfl, hb⟩
    · rename_i hlt
      rw [Hub.stopwatchTick_second (h := s.hub.countTimers) hw hlt]
      have second : b.waitSecond = { b with cradleWait := some (min (n + 1) 65535) } := by
        simp only [Bale.waitSecond, hn]; rfl
      refine Hub.lateCheck_running (n := min (n + 1) 65535) _ (w := { w with phase := 0 })
        (b := { b with cradleWait := some (min (n + 1) 65535) }) rfl ?_ rfl
      change s.hub.tracker.cradle.map Bale.waitSecond = _
      rw [hb, Option.map_some, second]
  · exact Hub.stopwatchTick_quiet s.hub.countTimers hq
  · refine (field Hub.sampler).trans ?_
    simp only [Hub.countTimers]
    cases s.hub.sampler.edgeTimer <;> rfl
  · exact field Hub.clock
  · exact field Hub.params
  · exact field Hub.map
  · exact field Hub.control
  · exact field fun k => k.claims.valves

/-- Settles O2: the passing of 10 ms timer by timer, and the choice among the due commands. -/
theorem tenMillisecondsPassOnAnEmptyQueue : Obligations.TenMillisecondsPassOnAnEmptyQueue := by
  refine ⟨tenMillisecondsPass_holds, fun s hp hd => ?_, Hub.mem_dueCommands⟩
  obtain ⟨c, hm, hc⟩ := chooseDue_mem s.choices hd
  have taken : step s = exec c s.nextChoice := by
    unfold step
    simp only [hp, hc]
  exact ⟨c, hm, taken⟩

end Sys2Proof.Machine

namespace Sys2Proof.Machine

open Says

/-! ### The reading of a position input -/

/-- A whole step of voltage reads exactly (R183). -/
theorem rawReading_step (n : Nat) (hn : n ≤ 4095) : rawReading (1000 * n) = n := by
  have hd : 1000 * n / Config.voltsPerStep = n := Nat.mul_div_cancel_left n (by decide)
  have hm : 1000 * n % Config.voltsPerStep = 0 := Nat.mul_mod_right _ n
  simp only [rawReading, hd, hm, Config.readingMax]
  split
  · omega
  · rfl

/-- 3.0 V and more read 4095 (R183). -/
theorem rawReading_full (v : Voltage) (hv : 4095000 ≤ v) : rawReading v = 4095 := by
  have hd : Config.readingMax ≤ v / Config.voltsPerStep := (Nat.le_div_iff_mul_le (by decide)).mpr hv
  simp only [rawReading, if_pos hd]
  rfl

/-- A voltage below 3.0 V gives the reading at or below it, or the next one (R183; log 20). -/
theorem rawReading_nearest (v : Voltage) (hv : v < 4095000) : rawReading v = v / 1000 ∨ rawReading v = v / 1000 + 1 := by
  have hd : ¬ Config.readingMax ≤ v / Config.voltsPerStep := Nat.not_le.mpr ((Nat.div_lt_iff_lt_mul (by decide)).mpr hv)
  simp only [rawReading, if_neg hd]
  split
  · exact .inl rfl
  · split
    · exact .inr rfl
    · exact .inl rfl

/-! ### What a sample derives -/

theorem Hub.sense_capture (h : Hub) (volts : Voltages) (a : Axis) : (h.capture volts).sense a = h.derive volts a := by
  cases a <;> rfl

/-- The zone of a position is the number of boundaries at or below it (R9). -/
theorem Bounds.zoneOf_code (b : Bounds) (p : Nat) : (b.zoneOf p).code = (b.toList.filter (· ≤ p)).length := by
  have hle : (b.toList.filter (· ≤ p)).length ≤ 7 := List.length_filter_le _ b.toList
  exact Nat.mod_eq_of_lt (Nat.lt_succ_of_le hle)

theorem readingValid_iff (raw : Nat) : readingValid raw = true ↔ 16 ≤ raw ∧ raw ≤ 4079 := decide_eq_true_iff

/-- A linear axis in range takes its reading as its position (R3, R9). -/
theorem Hub.derive_inRange (h : Hub) (volts : Voltages) {a : Axis} (ha : a ≠ .ring)
    (hr : readingValid (h.captured volts a) = true) :
    h.derive volts a = { raw := h.captured volts a, position := h.captured volts a, valid := true,
                         zone := (h.map.get a).bounds.zoneOf (h.captured volts a) } := by
  simp only [Hub.derive, if_neg ha, hr, if_true]

/-- A linear axis out of range keeps its position, is invalid and in zone U (R3, R9). -/
theorem Hub.derive_outOfRange (h : Hub) (volts : Voltages) {a : Axis} (ha : a ≠ .ring)
    (hr : ¬ readingValid (h.captured volts a) = true) :
    h.derive volts a = { raw := h.captured volts a, position := (h.sense a).position, valid := false, zone := .unknown } := by
  simp only [Hub.derive, if_neg ha, Bool.eq_false_iff.mpr hr, Bool.false_eq_true, if_false]

/-- The ring takes the encoder's position and reference state (R8, R9). -/
theorem Hub.derive_ring (h : Hub) (volts : Voltages) :
    h.derive volts .ring = {
      raw := h.sampler.ringPosition, position := h.sampler.ringPosition, valid := h.sampler.ringReferenced,
      zone := if h.sampler.ringReferenced then (h.map.get .ring).bounds.zoneOf h.sampler.ringPosition else .unknown } := rfl

/-! ### What crossing evaluation leaves alone -/

/-- What every end of a motion and the service keep, the evaluation of a sample keeps. -/
theorem Hub.evaluate_induction (P : Hub → Prop) (ends : ∀ h a c, P h → P (Hub.endMotion h a c))
    (service : ∀ h, P h → P (Hub.service h)) (h before : Hub) (hp : P h) : P (h.evaluate before) := by
  have stops (l : List (Axis × EndCause)) (k : Hub) (hk : P k) : P (k.applyStops l) := by
    induction l generalizing k with
    | nil => exact hk
    | cons p l ih => exact ih _ (ends _ _ _ hk)
  have arrivals (l : List Axis) (k : Hub) (hk : P k) : P (l.foldl (fun h a => h.endMotion a .arrived) k) := by
    induction l generalizing k with
    | nil => exact hk
    | cons a l ih => exact ih _ (ends _ _ _ hk)
  have ended := arrivals (Axis.list.filter (h.applyStops (h.sampleStops before)).arrived) _
    (stops (h.sampleStops before) h hp)
  unfold Hub.evaluate
  dsimp only
  split
  · exact ended
  · exact service _ ended

@[simp] theorem Hub.evaluate_sampler (h before : Hub) : (h.evaluate before).sampler = h.sampler :=
  Hub.evaluate_induction (fun k => k.sampler = h.sampler) (fun _ _ _ hk => by simpa using hk) (fun _ hk => by simpa using hk) h
    before rfl

/-- A sample's own part: what it captures, and the notice of a position lost (R2, R4). -/
def Hub.taken (h : Hub) (volts : Voltages) : Hub :=
  if Axis.list.any (h.becomesInvalid volts) then (h.capture volts).postAll .sensorFault else h.capture volts

theorem Hub.sample_eq (h : Hub) (volts : Voltages) : h.sample volts = (h.taken volts).evaluate h := rfl

theorem Hub.taken_sampler (h : Hub) (volts : Voltages) : (h.taken volts).sampler = (h.capture volts).sampler := by
  unfold Hub.taken; split <;> simp [Hub.postAll]

theorem Hub.sample_sampler (h : Hub) (volts : Voltages) : (h.sample volts).sampler = (h.capture volts).sampler := by
  rw [Hub.sample_eq, Hub.evaluate_sampler, Hub.taken_sampler]

theorem Hub.sense_sample (h : Hub) (volts : Voltages) (a : Axis) : (h.sample volts).sense a = h.derive volts a := by
  rw [← Hub.sense_capture, Hub.sense, Hub.sense, Hub.sample_sampler]

/-! ### The notices of a grant -/

/-- `k` has the enable sets of `h`, and the kind `m` pending for the same roles. -/
def Hub.QuietOn (m : Notice) (h k : Hub) : Prop :=
  ∀ r, (k.notices.get r).enable = (h.notices.get r).enable ∧ (posted k m r ↔ posted h m r)

section
variable {m : Notice} {h k l : Hub}

theorem Hub.QuietOn.trans (hk : Hub.QuietOn m h k) (hl : Hub.QuietOn m k l) : Hub.QuietOn m h l :=
  fun r => ⟨(hl r).1.trans (hk r).1, (hl r).2.trans (hk r).2⟩

theorem Hub.quietOn_of_notices (e : k.notices = h.notices) : Hub.QuietOn m h k :=
  fun r => by simp only [posted, e, and_self]

/-- Posting one kind says nothing of another (R144). -/
theorem Hub.quietOn_postTo (n : Notice) (l : List Role) (hn : n.bit.getLsbD m.number = false) :
    Hub.QuietOn m h (h.postTo n l) :=
  fun r => ⟨(Hub.postTo_get n l h r).2, by rw [posted_postTo, hn]; simp⟩

theorem Hub.quietOn_evalFeedHold (hf : Notice.feedHold.bit.getLsbD m.number = false) : Hub.QuietOn m h h.evalFeedHold := by
  unfold Hub.evalFeedHold
  dsimp only
  split
  · exact Hub.QuietOn.trans (Hub.quietOn_of_notices rfl) (Hub.quietOn_postTo _ _ hf)
  · exact Hub.quietOn_of_notices rfl

theorem Hub.quietOn_advance (p : Place) (b : Bale) (g : Stage) (hb : Notice.baleMoved.bit.getLsbD m.number = false) :
    Hub.QuietOn m h (h.advance p b g) :=
  Hub.QuietOn.trans (Hub.quietOn_of_notices rfl) (Hub.quietOn_postTo _ _ hb)

theorem Hub.quietOn_reportGrant (a : Axis) (d : Direction) (hb : Notice.baleMoved.bit.getLsbD m.number = false)
    (hf : Notice.feedHold.bit.getLsbD m.number = false) : Hub.QuietOn m h (h.reportGrant a d) := by
  have still : Hub.QuietOn m h h := Hub.quietOn_of_notices rfl
  unfold Hub.reportGrant
  split
  · split
    · split
      · exact (Hub.quietOn_advance _ _ _ hb).trans (Hub.quietOn_evalFeedHold hf)
      · exact still
    · exact still
  · split
    · split
      · exact Hub.quietOn_advance _ _ _ hb
      · exact still
    · exact still
  · exact still

theorem Hub.quietOn_grant (a : Axis) (hb : Notice.baleMoved.bit.getLsbD m.number = false)
    (hf : Notice.feedHold.bit.getLsbD m.number = false) : Hub.QuietOn m h (h.grant a) := by
  unfold Hub.grant
  refine Hub.QuietOn.trans ?_ (Hub.quietOn_reportGrant _ _ hb hf)
  exact Hub.quietOn_of_notices rfl

theorem Hub.quietOn_endMotion (a : Axis) (c : EndCause) (ha : (Notice.axis a).bit.getLsbD m.number = false) :
    Hub.QuietOn m h (h.endMotion a c) :=
  (Hub.quietOn_postTo _ _ ha).trans (Hub.quietOn_of_notices (Hub.endMotion_notices ..))

theorem Hub.quietOn_grantFromQueue (a : Axis) (ha : (Notice.axis a).bit.getLsbD m.number = false)
    (hb : Notice.baleMoved.bit.getLsbD m.number = false) (hf : Notice.feedHold.bit.getLsbD m.number = false) :
    Hub.QuietOn m h (h.grantFromQueue a) := by
  have left : Hub.QuietOn m h (h.dequeue a) := Hub.quietOn_of_notices rfl
  exact (left.trans (Hub.quietOn_grant a hb hf)).trans (Hub.quietOn_postTo _ _ ha)

/-- The kinds that ends, grants and pauses of motions post are the axis kinds, BALE_MOVED and FEED_HOLD (R72, R107, R143). -/
theorem Hub.quietOn_service (ha : ∀ a, (Notice.axis a).bit.getLsbD m.number = false)
    (hb : Notice.baleMoved.bit.getLsbD m.number = false) (hf : Notice.feedHold.bit.getLsbD m.number = false) :
    Hub.QuietOn m h h.service :=
  Hub.service_induction (Hub.QuietOn m h)
    (fun _ e _ c hk _ _ => hk.trans ((Hub.quietOn_endMotion e.axis c (ha _)).trans (Hub.quietOn_of_notices rfl)))
    (fun _ e _ hk _ _ _ => hk.trans (Hub.quietOn_grantFromQueue e.axis (ha _) hb hf)) h (Hub.quietOn_of_notices rfl)

/-- The evaluation of a sample neither posts SENSOR_FAULT nor takes it back, and leaves the enable sets. -/
theorem Hub.evaluate_quietOn_sensorFault (h before : Hub) : Hub.QuietOn .sensorFault h (h.evaluate before) := by
  have ha (a : Axis) : (Notice.axis a).bit.getLsbD Notice.sensorFault.number = false := by cases a <;> decide
  exact Hub.evaluate_induction (Hub.QuietOn .sensorFault h) (fun _ a c hk => hk.trans (Hub.quietOn_endMotion a c (ha a)))
    (fun _ hk => hk.trans (Hub.quietOn_service ha (by decide) (by decide))) h before (Hub.quietOn_of_notices rfl)

end

/-! ### The settings a sample keeps -/

/-- What of the tracker no grant touches: it moves a stage at CHAMBER or TABLE and evaluates FEED HOLD (R107). -/
def Tracker.besideGrants (t : Tracker) : Option Bale × List Bale × Nat × Option Nat × Option Stopwatch :=
  (t.cradle, t.log, t.nextNumber, t.transit, t.stopwatch)

theorem Hub.reportGrant_besideGrants (h : Hub) (a : Axis) (d : Direction) :
    (h.reportGrant a d).tracker.besideGrants = h.tracker.besideGrants := by
  unfold Hub.reportGrant
  split
  · split
    · split
      · rw [Hub.evalFeedHold_tracker, Hub.advance_tracker]; rfl
      · rfl
    · rfl
  · split
    · split
      · rw [Hub.advance_tracker]; rfl
      · rfl
    · rfl
  · rfl

theorem Hub.grantFromQueue_besideGrants (h : Hub) (a : Axis) :
    (h.grantFromQueue a).tracker.besideGrants = h.tracker.besideGrants := by
  rw [Hub.grantFromQueue, Hub.postAxis, Hub.postTo_tracker, Hub.grant, Hub.reportGrant_besideGrants]
  rfl

theorem Hub.service_besideGrants (h : Hub) : h.service.tracker.besideGrants = h.tracker.besideGrants :=
  Hub.service_induction (fun k => k.tracker.besideGrants = h.tracker.besideGrants) (fun _ _ _ _ hk _ _ => by simpa using hk)
    (fun k e _ hk _ _ _ => (k.grantFromQueue_besideGrants e.axis).trans hk) h rfl

/-- The blocks that the ends and grants of motions leave alone, but for the notice sets. -/
structure Settings where
  inputs : Levels
  map : PerAxis AxisMap
  params : Params
  clock : FieldClock
  control : ModeControl
  counter : LayerCounter
  ports : PerRole Port
  handler : Handler
  heldOrder : List Role
  besideGrants : Option Bale × List Bale × Nat × Option Nat × Option Stopwatch

/-- The settings of the hub. -/
def Hub.settings (h : Hub) : Settings :=
  ⟨h.inputs, h.map, h.params, h.clock, h.control, h.counter, h.ports, h.handler, h.heldOrder, h.tracker.besideGrants⟩

@[simp] theorem Hub.endMotion_settings (h : Hub) (a : Axis) (c : EndCause) : (h.endMotion a c).settings = h.settings := by
  simp [Hub.settings]

@[simp] theorem Hub.service_settings (h : Hub) : h.service.settings = h.settings := by
  simp [Hub.settings, Hub.service_besideGrants]

theorem Hub.sample_settings (h : Hub) (volts : Voltages) : (h.sample volts).settings = h.settings := by
  have taken : (h.taken volts).settings = h.settings := by
    unfold Hub.taken; split <;> simp [Hub.settings, Hub.postAll, Hub.capture]
  rw [Hub.sample_eq, ← taken]
  exact Hub.evaluate_induction (fun k => k.settings = (h.taken volts).settings) (fun _ _ _ hk => by simpa using hk)
    (fun _ hk => by simpa using hk) _ h rfl

/-- The settings and the enable sets are what `settingsKept` names. -/
theorem Says.settingsKept_of_settings (s : State) (k : Hub) (hk : k.settings = s.hub.settings)
    (he : ∀ r, (k.notices.get r).enable = (s.hub.notices.get r).enable) : settingsKept s { s with hub := k } := by
  simp only [Hub.settings, Tracker.besideGrants, Settings.mk.injEq, Prod.mk.injEq] at hk
  simp only [settingsKept, hk, he, and_self, implies_true]

/-! ### The notice of a position lost -/

theorem Hub.posted_taken (h : Hub) (volts : Voltages) {a : Axis} (ha : h.becomesInvalid volts a = true) (r : Role) :
    posted (h.taken volts) .sensorFault r := by
  have every : a ∈ Axis.list := by cases a <;> decide
  rw [Hub.taken, if_pos (List.any_eq_true.mpr ⟨a, every, ha⟩)]
  exact posted_postAll ..

theorem Hub.taken_notices (h : Hub) (volts : Voltages) (hn : ∀ a, h.becomesInvalid volts a = false) :
    (h.taken volts).notices = h.notices := by
  have none : ¬ Axis.list.any (h.becomesInvalid volts) = true := by simp [hn]
  rw [Hub.taken, if_neg none]
  rfl

/-- SENSOR_FAULT is pending after a sample exactly when it is after the sample's own part: crossing evaluation posts other
kinds. -/
theorem Hub.sample_posted (h : Hub) (volts : Voltages) (r : Role) :
    posted (h.sample volts) .sensorFault r ↔ posted (h.taken volts) .sensorFault r :=
  (Hub.evaluate_quietOn_sensorFault (h.taken volts) h r).2

theorem Hub.sample_enable (h : Hub) (volts : Voltages) (r : Role) :
    ((h.sample volts).notices.get r).enable = (h.notices.get r).enable := by
  refine (Hub.evaluate_quietOn_sensorFault (h.taken volts) h r).1.trans ?_
  unfold Hub.taken
  split
  · exact (Hub.postTo_get _ _ _ r).2
  · rfl

/-- A linear axis becomes invalid when it is out of range and was valid, or the sample is the first (R4). -/
theorem Hub.becomesInvalid_iff (h : Hub) (volts : Voltages) (a : Axis) : h.becomesInvalid volts a = true ↔
    a ≠ .ring ∧ ¬ (16 ≤ h.captured volts a ∧ h.captured volts a ≤ 4079) ∧
      ((h.sense a).valid = true ∨ h.sampler.fresh = true) := by
  simp only [Hub.becomesInvalid, Bool.and_eq_true, Bool.or_eq_true, bne_iff_ne, Bool.not_eq_true', ← readingValid_iff,
    Bool.not_eq_true, and_assoc]

theorem sampleDerivesPositionsAndZones_holds : sampleDerivesPositionsAndZones := by
  intro s volts
  have sensed := s.hub.sense_sample volts
  have ring := (sensed .ring).trans (s.hub.derive_ring volts)
  have sampler := s.hub.sample_sampler volts
  refine ⟨{ s with hub := s.hub.sample volts }, rfl, fun a raw ha hraw => ?_, ?_, ?_, ?_, ?_, ?_,
    settingsKept_of_settings s _ (s.hub.sample_settings volts) (s.hub.sample_enable volts)⟩
  · subst hraw
    dsimp only
    rw [sensed]
    split
    · rename_i hr
      rw [Hub.derive_inRange _ _ ha ((readingValid_iff _).mpr hr)]
      exact ⟨rfl, rfl, Bounds.zoneOf_code ..⟩
    · rename_i hr
      rw [Hub.derive_outOfRange _ _ ha fun e => hr ((readingValid_iff _).mp e)]
      exact ⟨rfl, rfl, rfl⟩
  · rw [ring]
  · rw [ring]
  · rw [ring]
    split
    · exact Bounds.zoneOf_code ..
    · rfl
  · rw [sampler]; rfl
  · rw [sampler]; rfl

/-- Settles O7: the conversion, what a sample derives, and SENSOR_FAULT when a position is lost and only then. -/
theorem sampleDerivesItsValues : Obligations.SampleDerivesItsValues := by
  refine ⟨⟨rawReading_step, rawReading_full, rawReading_nearest, fun _ _ => ⟨rfl, rfl, rfl, rfl, rfl⟩⟩,
    sampleDerivesPositionsAndZones_holds, fun s volts a ha hr hv => ⟨_, rfl, fun r => ?_⟩,
    fun s volts hk => ⟨_, rfl, fun r => ?_⟩⟩
  · have lost : s.hub.becomesInvalid volts a = true := (s.hub.becomesInvalid_iff volts a).mpr ⟨ha, by omega, hv⟩
    exact (s.hub.sample_posted volts r).mpr (s.hub.posted_taken volts lost r)
  · have kept : ∀ a, s.hub.becomesInvalid volts a = false := fun a => by
      rw [Bool.eq_false_iff, Ne, Hub.becomesInvalid_iff]
      rintro ⟨ha, hr, hv⟩
      rcases hk a ha with h | ⟨h1, h2⟩
      · exact hr h
      · simp [h1, h2] at hv
    refine (s.hub.sample_posted volts r).trans ?_
    simp only [posted, s.hub.taken_notices volts kept]
    rfl

end Sys2Proof.Machine

/-! ## Claims, leases and handover

The end of a motion with the service after it is described once, in `Says.ended_of_motionAgrees`, for RELEASE and for the two
timers of an axis. -/

namespace Sys2Proof.Machine

open Says

/-! ### Notices that a service keeps pending -/

/-- Every kind pending in `h` for a role is pending in `k` for it. -/
def Hub.KeepsPosted (h k : Hub) : Prop := ∀ n r, posted h n r → posted k n r

section
variable {h k l : Hub}

theorem Hub.KeepsPosted.trans (hk : h.KeepsPosted k) (hl : k.KeepsPosted l) : h.KeepsPosted l :=
  fun n r hp => hl n r (hk n r hp)

theorem Hub.keepsPosted_of_notices (e : k.notices = h.notices) : h.KeepsPosted k :=
  fun n r hp => by simpa only [posted, e] using hp

/-- Posting adds to a set and takes nothing from it (R142). -/
theorem Hub.keepsPosted_postTo (n : Notice) (l : List Role) : h.KeepsPosted (h.postTo n l) :=
  fun m r hp => (posted_postTo h n m l r).mpr (.inl hp)

theorem Hub.keepsPosted_endMotion (a : Axis) (c : EndCause) : h.KeepsPosted (h.endMotion a c) :=
  (Hub.keepsPosted_postTo _ _).trans (Hub.keepsPosted_of_notices (Hub.endMotion_notices ..))

theorem Hub.keepsPosted_advance (p : Place) (b : Bale) (g : Stage) : h.KeepsPosted (h.advance p b g) := by
  refine Hub.KeepsPosted.trans ?_ (Hub.keepsPosted_postTo _ _)
  exact Hub.keepsPosted_of_notices rfl

theorem Hub.keepsPosted_reportGrant (a : Axis) (d : Direction) : h.KeepsPosted (h.reportGrant a d) := by
  have still : h.KeepsPosted h := fun _ _ hp => hp
  unfold Hub.reportGrant
  split
  · split
    · split
      · exact (Hub.keepsPosted_advance _ _ _).trans fun n r hp => posted_evalFeedHold _ n r hp
      · exact still
    · exact still
  · split
    · split
      · exact Hub.keepsPosted_advance _ _ _
      · exact still
    · exact still
  · exact still

theorem Hub.keepsPosted_grantFromQueue (a : Axis) : h.KeepsPosted (h.grantFromQueue a) := by
  have granted : h.KeepsPosted ((h.dequeue a).grant a) := by
    refine Hub.KeepsPosted.trans ?_ (Hub.keepsPosted_reportGrant _ _)
    exact Hub.keepsPosted_of_notices rfl
  exact granted.trans (Hub.keepsPosted_postTo _ _)

/-- A service takes back no notice. -/
theorem Hub.keepsPosted_service : h.KeepsPosted h.service :=
  Hub.service_induction h.KeepsPosted
    (fun _ _ _ _ hk _ _ => (hk.trans (Hub.keepsPosted_endMotion _ _)).trans (Hub.keepsPosted_of_notices rfl))
    (fun _ _ _ hk _ _ _ => hk.trans (Hub.keepsPosted_grantFromQueue _)) h (fun _ _ hp => hp)

end

/-- A service leaves every enable set (R91, R142). -/
theorem Hub.service_enable (h : Hub) (r : Role) : (h.service.notices.get r).enable = (h.notices.get r).enable := by
  have axisKinds (a : Axis) : (Notice.axis a).bit.getLsbD Notice.sensorFault.number = false := by cases a <;> decide
  exact (Hub.quietOn_service (m := .sensorFault) axisKinds (by decide) (by decide) r).1

/-! ### A motion ended, and the service after it -/

@[simp] theorem Says.endedHub_record (h : Hub) (a b : Axis) (y : AxisRecord) :
    (endedHub h a y).record b = if b = a then y else h.record b := by
  rw [endedHub, Hub.record_postTo]; exact PerAxis.get_set ..

@[simp] theorem Says.endedHub_valves (h : Hub) (a : Axis) (y : AxisRecord) :
    (endedHub h a y).claims.valves = h.claims.valves.set a .off := by rw [endedHub, Hub.postTo_claims]

theorem Says.mem_endedHub_queue (h : Hub) (a : Axis) (y : AxisRecord) (e : WaitEntry) :
    e ∈ (endedHub h a y).arbiter.queue ↔ e ∈ h.arbiter.queue ∧ e.axis ≠ a := by
  simp [endedHub]

theorem Says.posted_endedHub (h : Hub) (a : Axis) (y : AxisRecord) {r : Role}
    (hr : r ∈ (h.record a).holder.toList ++ [.ct]) : posted (endedHub h a y) (.axis a) r := posted_of_mem _ _ hr

@[simp] theorem Says.endedHub_sampler (h : Hub) (a : Axis) (y : AxisRecord) : (endedHub h a y).sampler = h.sampler := by
  rw [endedHub, Hub.postTo_sampler]

@[simp] theorem Says.endedHub_settings (h : Hub) (a : Axis) (y : AxisRecord) : (endedHub h a y).settings = h.settings := by
  simp [endedHub, Hub.settings]

theorem Says.endedHub_enable (h : Hub) (a : Axis) (y : AxisRecord) (r : Role) :
    ((endedHub h a y).notices.get r).enable = (h.notices.get r).enable := (Hub.postTo_get _ _ _ r).2

/-- What stands after the motion of `a` has ended and the service has followed: the service acts on axes with an entry alone, and
keeps the claim table and the arbiter in agreement (R45, R75, R90). -/
theorem Says.ended_of_motionAgrees (s : State) (a : Axis) (y : AxisRecord) (entry : Option Entry) (hm : s.hub.motionAgrees)
    (hk : (endedHub s.hub a y).motionAgrees) (hy : y.state ≠ .moving) :
    ended s { s with hub := { (endedHub s.hub a y).service with lastEntry := entry } } a y := by
  have left (e : WaitEntry) (he : e ∈ (endedHub s.hub a y).arbiter.queue) : e.axis ≠ a :=
    ((mem_endedHub_queue ..).mp he).2
  obtain ⟨⟨record, valves⟩, queue⟩ := Hub.service_of_no_entry _ a left
  have agrees := motionAgrees_motionInvariant.service hk
  have recordEq : (endedHub s.hub a y).service.record a = y := by rw [record, endedHub_record, if_pos rfl]
  have notified {r : Role} (hr : r ∈ (s.hub.record a).holder.toList ++ [.ct]) :
      posted (endedHub s.hub a y).service (.axis a) r := Hub.keepsPosted_service _ r (posted_endedHub s.hub a y hr)
  refine ⟨rfl, recordEq, ?_, ?_, queue, notified (by simp), fun r hr => notified (by simp [hr]), fun b hb hw hp => ?_, ?_, ?_⟩
  · exact valves.trans (by rw [endedHub_valves, PerAxis.get_set_self])
  · intro hg
    exact hy (recordEq ▸ (agrees.granted_iff a).mp hg)
  · have others (e : WaitEntry) (he : e ∈ (endedHub s.hub a y).arbiter.queue) : e.axis ≠ b := fun hab =>
      ((hm.entry_iff b).mp ⟨e, ((mem_endedHub_queue ..).mp he).1, hab⟩).elim hw hp
    obtain ⟨⟨recordB, valvesB⟩, -⟩ := Hub.service_of_no_entry _ b others
    refine ⟨recordB.trans ?_, valvesB.trans ?_⟩
    · rw [endedHub_record, if_neg hb]
    · rw [endedHub_valves, PerAxis.get_set_of_ne _ _ hb]
  · exact ((endedHub s.hub a y).service_sampler).trans (endedHub_sampler ..)
  · refine settingsKept_of_settings s _ ?_ fun r => ?_
    · exact ((endedHub s.hub a y).service_settings).trans (endedHub_settings ..)
    · exact ((endedHub s.hub a y).service_enable r).trans (endedHub_enable ..)

theorem AxisState.inFlight_iff (g : AxisState) : g.inFlight = true ↔ g = .waiting ∨ g = .moving ∨ g = .paused := by
  cases g <;> decide

/-- An axis in flight loses its claim, and the service follows (R45, R52, R53). -/
theorem Hub.dropAndServe_inFlight (h : Hub) (a : Axis) (c : EndCause) (hm : h.motionAgrees) (hv : h.valvesAgree)
    (hf : inFlight (h.record a)) : h.dropAndServe a c = (endedHub h a (dropped (h.record a) c)).service := by
  rw [Hub.dropAndServe, if_pos ((AxisState.inFlight_iff _).mpr hf), h.dropClaim_eq a c hm hv]
  rfl

/-- A CLAIMED axis loses its claim and nothing else happens (R44, R51). -/
theorem Hub.dropAndServe_claimed (h : Hub) (a : Axis) (c : EndCause) (hs : (h.record a).state = .claimed) :
    h.dropAndServe a c = (h.setRecord a { h.record a with
      state := .idle, holder := none, lastHolder := (h.record a).holder, lease := 0, lastEnd := c }).postAxis a
        (h.record a).holder := by
  have nothing : h.undoMotion a = h := by rw [Hub.undoMotion, hs]
  rw [Hub.dropAndServe, if_neg (by simp [hs, AxisState.inFlight]), Hub.dropClaim]
  simp only [nothing]

/-- What stands after an axis in flight has lost its claim. -/
theorem Says.ended_dropped (s : State) (a : Axis) (c : EndCause) (entry : Option Entry) (hs : sound s) :
    ended s { s with hub := { (endedHub s.hub a (dropped (s.hub.record a) c)).service with lastEntry := entry } } a
      (dropped (s.hub.record a) c) := by
  obtain ⟨hm, hv⟩ := hs
  refine ended_of_motionAgrees s a _ entry hm ?_ (by simp [dropped])
  have e := s.hub.dropClaim_eq a c hm hv
  exact e ▸ Hub.dropClaim_motionAgrees a c hm

/-! ### Items answered with the data of an axis -/

/-- An item is replied with what its meaning makes of the part and answers. -/
theorem item_of_answer {s : State} {code : Byte} {f : Hub → Hub × Answer} {k : Hub} {v : Verdict} {data : List Byte}
    (hf : f s.hub = (k, ⟨v, data⟩)) : s.item code f = replied s code k v data := by
  rw [State.item_eq, hf]; rfl

/-- A reply with the state, holder and lease of an axis whose record is known (R59). -/
theorem item_of_claimAnswer {s : State} {code : Byte} {f : Hub → Hub × Answer} {k : Hub} {a : Axis} {v : Verdict}
    {x : AxisRecord} (hx : k.record a = x) (hf : f s.hub = k.claimAnswer a v) :
    s.item code f = replied s code k v x.claimData := item_of_answer (hf.trans (by rw [Hub.claimAnswer, hx]))

theorem AxisRecord.lateFor_iff (x : AxisRecord) (r : Role) : x.lateFor r = true ↔ late x r := by
  simp [AxisRecord.lateFor, and_assoc]

/-! ### CLAIM -/

/-- The lease of a held axis restarted (R48, R49). -/
theorem Hub.renewLease_held (h : Hub) (a : Axis) (hs : (h.record a).state ≠ .idle) :
    h.renewLease a = h.setRecord a { h.record a with
      lease := if (h.record a).state = .moving then (h.record a).holdTime else h.claimLease } := by
  have length : h.leaseLength (h.record a) =
      if (h.record a).state = .moving then (h.record a).holdTime else h.claimLease := by
    unfold Hub.leaseLength
    cases e : (h.record a).state <;> simp_all
  rw [Hub.renewLease, length]

/-- CLAIM of an axis by its own code: the checks in their order (R42). -/
theorem claimItem_axisCode (r : Role) (a : Axis) (h : Hub) :
    claimItem r (axisCode a) h =
      if h.control.mode ≠ .run then h.claimAnswer a .wrongMode
      else if (h.params.claimants.get a).getLsbD r.number = false then h.claimAnswer a .notAllowed
      else if (h.record a).state = .idle then
        (h.setRecord a { h.record a with state := .claimed, holder := some r, lease := h.claimLease }).claimAnswer a .ok
      else if (h.record a).holder = some r then (h.renewLease a).claimAnswer a .ok
      else h.claimAnswer a .busy := by
  simp only [claimItem, argAxis_axisCode, Hub.isClaimant, Bool.not_eq_true']

/-- Settles O14: the checks of CLAIM in their order, and a lease started or restarted. -/
theorem claimIsTaken : Obligations.ClaimIsTaken := by
  intro s r
  refine ⟨fun axis hb => item_of_answer (f := claimItem r axis) (by rw [claimItem, argAxis_eq_none hb]; rfl), fun a => ?_⟩
  have item := claimItem_axisCode r a s.hub
  change s.item 0x11#8 (claimItem r (axisCode a)) = _
  dsimp only
  by_cases hmode : s.hub.control.mode ≠ .run
  · rw [if_pos hmode] at item ⊢
    exact item_of_claimAnswer rfl item
  rw [if_neg hmode] at item ⊢
  by_cases hset : (s.hub.params.claimants.get a).getLsbD r.number = false
  · rw [if_pos hset] at item ⊢
    exact item_of_claimAnswer rfl item
  rw [if_neg hset] at item ⊢
  by_cases hidle : (s.hub.record a).state = .idle
  · rw [if_pos hidle] at item ⊢
    exact item_of_claimAnswer (Hub.record_setRecord_self ..) item
  rw [if_neg hidle] at item ⊢
  by_cases hholder : (s.hub.record a).holder = some r
  · rw [if_pos hholder] at item ⊢
    rw [Hub.renewLease_held _ _ hidle] at item
    exact item_of_claimAnswer (Hub.record_setRecord_self ..) item
  rw [if_neg hholder] at item ⊢
  exact item_of_claimAnswer rfl item

/-! ### REFRESH -/

/-- REFRESH of an axis by its own code: the checks in their order (R48). -/
theorem refreshItem_axisCode (r : Role) (a : Axis) (h : Hub) :
    refreshItem r (axisCode a) h =
      if late (h.record a) r then h.claimAnswer a .late
      else if (h.record a).holder ≠ some r then h.claimAnswer a .notHolder
      else (h.renewLease a).claimAnswer a .ok := by
  simp only [refreshItem, argAxis_axisCode, AxisRecord.lateFor_iff]

theorem refreshIsTaken_holds : refreshIsTaken := by
  intro s r
  refine ⟨fun axis hb => item_of_answer (f := refreshItem r axis) (by rw [refreshItem, argAxis_eq_none hb]; rfl), fun a => ?_⟩
  have item := refreshItem_axisCode r a s.hub
  refine ⟨fun hl => ?_, fun hl hh => ?_, fun hh hs => ?_⟩
  · rw [if_pos hl] at item
    exact item_of_claimAnswer rfl item
  · rw [if_neg hl, if_pos hh] at item
    exact item_of_claimAnswer rfl item
  · rw [if_neg fun hl => hs hl.1, if_neg (not_not_intro hh), Hub.renewLease_held _ _ hs] at item
    exact item_of_claimAnswer (Hub.record_setRecord_self ..) item

/-! ### HANDOVER -/

/-- A role's own code names it (R178). -/
theorem argRole_roleCode (r : Role) : argRole (roleCode r) = some r := by cases r <;> decide

/-- A code above 2 names no role (R178). -/
theorem argRole_eq_none {b : Byte} (hb : 2 < b.toNat) : argRole b = none := by
  unfold argRole Role.ofNumber
  split
  case h_4 => rfl
  all_goals omega

/-- HANDOVER of an axis to a role by their own codes: the checks in their order (R46, R47). -/
theorem handoverItem_codes (r p : Role) (a : Axis) (h : Hub) :
    handoverItem r (axisCode a) (roleCode p) h =
      if (h.record a).holder ≠ some r then h.claimAnswer a .notHolder
      else if p = r then h.claimAnswer a .ok
      else if inFlight (h.record a) then h.claimAnswer a .busy
      else if (h.params.claimants.get a).getLsbD p.number = false then h.claimAnswer a .notAllowed
      else ((h.setRecord a { h.record a with holder := some p, lease := h.claimLease }).postAxis a (some p)).claimAnswer a
        .ok := by
  simp only [handoverItem, argAxis_axisCode, argRole_roleCode, AxisState.inFlight_iff, Hub.isClaimant, Bool.not_eq_true']

theorem handoverIsTaken_holds : handoverIsTaken := by
  intro s r
  refine ⟨fun axis p hb => item_of_answer (f := handoverItem r axis p) ?_, fun a p => ?_⟩
  · rcases hb with hb | hb
    · rw [handoverItem, argAxis_eq_none hb]; rfl
    · rw [handoverItem, argRole_eq_none hb]; cases argAxis axis <;> rfl
  · have item := handoverItem_codes r p a s.hub
    change s.item 0x13#8 (handoverItem r (axisCode a) (roleCode p)) = _
    by_cases hholder : (s.hub.record a).holder ≠ some r
    · rw [if_pos hholder] at item ⊢
      exact item_of_claimAnswer rfl item
    rw [if_neg hholder] at item ⊢
    by_cases hself : p = r
    · rw [if_pos hself] at item ⊢
      exact item_of_claimAnswer rfl item
    rw [if_neg hself] at item ⊢
    by_cases hflight : inFlight (s.hub.record a)
    · rw [if_pos hflight] at item ⊢
      exact item_of_claimAnswer rfl item
    rw [if_neg hflight] at item ⊢
    by_cases hset : (s.hub.params.claimants.get a).getLsbD p.number = false
    · rw [if_pos hset] at item ⊢
      exact item_of_claimAnswer rfl item
    rw [if_neg hset] at item ⊢
    exact item_of_claimAnswer ((Hub.record_postTo ..).trans (Hub.record_setRecord_self ..)) item

/-- Settles O15: the checks of each item in their order. -/
theorem refreshAndHandoverAreTaken : Obligations.RefreshAndHandoverAreTaken := ⟨refreshIsTaken_holds, handoverIsTaken_holds⟩

/-! ### RELEASE -/

/-- RELEASE of an axis by its own code: the checks in their order (R44). -/
theorem releaseItem_axisCode (r : Role) (a : Axis) (h : Hub) :
    releaseItem r (axisCode a) h =
      if late (h.record a) r then h.claimAnswer a .late
      else if (h.record a).holder ≠ some r then h.claimAnswer a .notHolder
      else (h.dropAndServe a .released).claimAnswer a .ok := by
  simp only [releaseItem, argAxis_axisCode, AxisRecord.lateFor_iff]

/-- The holder of an axis that is not IDLE drops its claim (R44, R45). -/
theorem releaseItem_held (h : Hub) {a : Axis} {r : Role} (hs : (h.record a).state ≠ .idle)
    (hh : (h.record a).holder = some r) :
    releaseItem r (axisCode a) h = (h.dropAndServe a .released).claimAnswer a .ok := by
  rw [releaseItem_axisCode, if_neg fun hl => hs hl.1, if_neg (not_not_intro hh)]

theorem releaseOfAClaimedAxis_holds : releaseOfAClaimedAxis := by
  intro s r
  refine ⟨fun axis hb => item_of_answer (f := releaseItem r axis) (by rw [releaseItem, argAxis_eq_none hb]; rfl), fun a => ?_⟩
  have item := releaseItem_axisCode r a s.hub
  refine ⟨fun hl => ?_, fun hl hh => ?_, fun hs hh => ?_⟩
  · rw [if_pos hl] at item
    exact item_of_claimAnswer rfl item
  · rw [if_neg hl, if_pos hh] at item
    exact item_of_claimAnswer rfl item
  · have taken := releaseItem_held s.hub (by simp [hs]) hh
    rw [Hub.dropAndServe_claimed _ _ _ hs, hh] at taken
    exact item_of_claimAnswer ((Hub.record_postTo ..).trans (Hub.record_setRecord_self ..)) taken

theorem releaseEndsTheMotion_holds : releaseEndsTheMotion := by
  intro s r a hs hf hh
  have held : (s.hub.record a).state ≠ .idle := by rcases hf with e | e | e <;> simp [e]
  have stands (entry : Option Entry) := ended_dropped s a .released entry hs
  have record : (endedHub s.hub a (dropped (s.hub.record a) .released)).service.record a = _ := (stands none).2.1
  have item := releaseItem_held s.hub held hh
  rw [Hub.dropAndServe_inFlight _ _ _ hs.1 hs.2 hf] at item
  exact ⟨_, item_of_claimAnswer record item, stands _, rfl⟩

/-- Settles O16: RELEASE by the state of the axis. -/
theorem releaseIsTaken : Obligations.ReleaseIsTaken := ⟨releaseOfAClaimedAxis_holds, releaseEndsTheMotion_holds⟩

/-! ### The timers of an axis -/

theorem leaseOfAClaimedAxisRunsOut_holds : leaseOfAClaimedAxisRunsOut := by
  intro s a r hs hh
  change s.event (fun h => h.leaseExpiry a) = _
  rw [State.event_eq, Hub.leaseExpiry, if_neg (by simp [hs]), Hub.dropAndServe_claimed _ _ _ hs, hh]
  rfl

theorem leaseOfAMotionRunsOut_holds : leaseOfAMotionRunsOut := by
  intro s a hs hf
  have held : (s.hub.record a).state ≠ .idle := by rcases hf with e | e | e <;> simp [e]
  refine ⟨{ s with hub := (endedHub s.hub a (dropped (s.hub.record a) .expired)).service }, ?_, ?_, ?_⟩
  · change s.event (fun h => h.leaseExpiry a) = _
    rw [State.event_eq, Hub.leaseExpiry, if_neg held, Hub.dropAndServe_inFlight _ _ _ hs.1 hs.2 hf]
  · exact ended_dropped s a .expired _ hs
  · exact (Hub.service_lastEntry _).trans (Hub.postTo_lastEntry ..)

theorem waitTimerRunsOut_holds : waitTimerRunsOut := by
  intro s a ⟨hm, hv⟩ he
  have entry : s.hub.hasEntry a = true := by simpa [Hub.hasEntry] using he
  have held : (s.hub.record a).state ≠ .idle := by rcases (hm.entry_iff a).mp he with e | e <;> simp [e]
  have e : s.hub.endMotion a .waitTimeout = endedHub s.hub a (kept s (s.hub.record a) .waitTimeout) :=
    s.hub.endMotion_eq a .waitTimeout hm hv
  refine ⟨{ s with hub := (endedHub s.hub a (kept s (s.hub.record a) .waitTimeout)).service }, ?_, ?_, ?_⟩
  · change s.event (fun h => h.waitTimeout a) = _
    rw [State.event_eq, Hub.waitTimeout, if_pos entry, Hub.dequeue_endMotion a _ hm, e]
  · exact ended_of_motionAgrees s a _ _ hm (e ▸ Hub.endMotion_motionAgrees a _ hm held) (by simp [kept])
  · exact (Hub.service_lastEntry _).trans (Hub.postTo_lastEntry ..)

/-- Settles O17: the lease of an axis by its state, and the wait timer of an entry. -/
theorem axisTimersRunOut : Obligations.AxisTimersRunOut :=
  ⟨leaseOfAClaimedAxisRunsOut_holds, leaseOfAMotionRunsOut_holds, waitTimerRunsOut_holds⟩

end Sys2Proof.Machine

namespace Sys2Proof.Machine

/-! ### Items that are refused -/

/-- An item's outcome that leaves the part as it was when it is a refusal (R172). -/
structure Hub.KeptIfRefused (h : Hub) (x : Hub × Answer) : Prop where
  kept : x.2.verdict.isRefusal = true → x.1 = h

section
variable {h k : Hub}

theorem Hub.keptIfRefused_same (x : Answer) : h.KeptIfRefused (h, x) := ⟨fun _ => rfl⟩

theorem Hub.keptIfRefused_of_hub {x : Hub × Answer} (hx : x.1 = h) : h.KeptIfRefused x := ⟨fun _ => hx⟩

/-- OK is no refusal, whatever the item made of the part. -/
theorem Hub.keptIfRefused_ok (data : List Byte) : h.KeptIfRefused (k, ⟨.ok, data⟩) := ⟨fun hv => nomatch hv⟩

theorem Hub.keptIfRefused_queued (data : List Byte) : h.KeptIfRefused (k, ⟨.queued, data⟩) := ⟨fun hv => nomatch hv⟩

end

section
variable (h : Hub) (r : Role)

/-! #### The claim table's items -/

theorem claimItem_keptIfRefused (axis : Byte) : h.KeptIfRefused (claimItem r axis h) := by
  unfold claimItem
  repeat' split
  case h_2.isFalse.isFalse.isTrue | h_2.isFalse.isFalse.isFalse.isTrue => exact Hub.keptIfRefused_ok _
  all_goals exact Hub.keptIfRefused_same _

theorem releaseItem_keptIfRefused (axis : Byte) : h.KeptIfRefused (releaseItem r axis h) := by
  unfold releaseItem
  repeat' split
  case h_2.isFalse.isFalse => exact Hub.keptIfRefused_ok _
  all_goals exact Hub.keptIfRefused_same _

theorem handoverItem_keptIfRefused (axis p : Byte) : h.KeptIfRefused (handoverItem r axis p h) := by
  unfold handoverItem
  repeat' split
  case h_1.isFalse.isFalse.isFalse.isFalse => exact Hub.keptIfRefused_ok _
  all_goals exact Hub.keptIfRefused_same _

theorem refreshItem_keptIfRefused (axis : Byte) : h.KeptIfRefused (refreshItem r axis h) := by
  unfold refreshItem
  repeat' split
  case h_2.isFalse.isFalse => exact Hub.keptIfRefused_ok _
  all_goals exact Hub.keptIfRefused_same _

/-! #### Motion requests -/

theorem Hub.retarget_keptIfRefused (a : Axis) (d : Direction) (t : Target) (hold : Nat) (cls : Option MotionClass) :
    h.KeptIfRefused (h.retarget a d t hold cls) := by
  unfold Hub.retarget
  dsimp only
  split
  · exact Hub.keptIfRefused_of_hub (Hub.valueAnswer_hub ..)
  · repeat' split
    case isFalse.isTrue | isFalse.isFalse.isFalse => exact Hub.keptIfRefused_ok _
    all_goals exact Hub.keptIfRefused_same _

theorem Hub.takeUp_keptIfRefused (a : Axis) (d : Direction) (t : Target) (c : MotionClass) (hold : Nat) :
    h.KeptIfRefused (h.takeUp a d t c hold) := by
  unfold Hub.takeUp
  split
  · exact Hub.keptIfRefused_same _
  · split
    · exact Hub.keptIfRefused_same _
    · split
      · exact Hub.keptIfRefused_same _
      · split
        · exact Hub.keptIfRefused_ok _
        · exact Hub.keptIfRefused_queued _

theorem Hub.newMotion_keptIfRefused (a : Axis) (d : Direction) (t : Target) (hold : Nat) (cls : Option MotionClass) :
    h.KeptIfRefused (h.newMotion a d t hold cls) := by
  unfold Hub.newMotion
  split
  · exact Hub.keptIfRefused_same _
  · split
    · exact Hub.keptIfRefused_of_hub (Hub.valueAnswer_hub ..)
    · exact Hub.keptIfRefused_same _
    · split
      · exact Hub.keptIfRefused_ok _
      · exact h.takeUp_keptIfRefused ..

theorem moveItem_keptIfRefused (m : MoveArgs) : h.KeptIfRefused (moveItem r m h) := by
  unfold moveItem
  dsimp only
  repeat' split
  case h_4.isTrue => exact h.retarget_keptIfRefused ..
  case h_5 => exact h.newMotion_keptIfRefused ..
  all_goals exact Hub.keptIfRefused_same _

theorem stopItem_keptIfRefused (axis : Byte) : h.KeptIfRefused (stopItem r axis h) := by
  unfold stopItem
  dsimp only
  split
  · exact Hub.keptIfRefused_same _
  · split
    · exact Hub.keptIfRefused_same _
    · split
      · exact Hub.keptIfRefused_same _
      · split
        · exact Hub.keptIfRefused_ok _
        · exact Hub.keptIfRefused_same _

/-! #### Bales, net and film -/

theorem baleStartItem_keptIfRefused : h.KeptIfRefused (baleStartItem r h) := by
  unfold baleStartItem
  repeat' split
  case isFalse.isFalse => exact Hub.keptIfRefused_ok _
  all_goals exact Hub.keptIfRefused_same _

theorem bindStartItem_keptIfRefused : h.KeptIfRefused (bindStartItem r h) := by
  unfold bindStartItem
  repeat' split
  case h_1.isTrue => exact Hub.keptIfRefused_ok _
  all_goals exact Hub.keptIfRefused_same _

theorem bindRetryItem_keptIfRefused : h.KeptIfRefused (bindRetryItem r h) := by
  unfold bindRetryItem
  split
  · exact Hub.keptIfRefused_same _
  · split
    · split
      · exact Hub.keptIfRefused_ok _
      · exact Hub.keptIfRefused_same _
    · exact Hub.keptIfRefused_same _

theorem wrapStartItem_keptIfRefused : h.KeptIfRefused (wrapStartItem r h) := by
  unfold wrapStartItem
  repeat' split
  case h_1.isTrue => exact Hub.keptIfRefused_ok _
  all_goals exact Hub.keptIfRefused_same _

theorem filmResetItem_keptIfRefused (code : Byte) : h.KeptIfRefused (filmResetItem r code h) := by
  unfold filmResetItem
  repeat' split
  case h_2 => exact Hub.keptIfRefused_ok _
  all_goals exact Hub.keptIfRefused_same _

theorem baleNoteItem_keptIfRefused (v : Half) : h.KeptIfRefused (baleNoteItem r v h) := by
  cases r with
  | ct => exact Hub.keptIfRefused_same _
  | ch | wr =>
    unfold baleNoteItem
    dsimp only
    split
    · exact Hub.keptIfRefused_same _
    · split
      · exact Hub.keptIfRefused_ok _
      · exact Hub.keptIfRefused_same _

theorem baleDeclareItem_keptIfRefused (p g : Byte) : h.KeptIfRefused (baleDeclareItem r p g h) := by
  unfold baleDeclareItem
  repeat' split
  case h_1.isFalse.isFalse => exact Hub.keptIfRefused_ok _
  all_goals exact Hub.keptIfRefused_same _

theorem logDropItem_keptIfRefused (n : Byte) : h.KeptIfRefused (logDropItem r n h) := by
  unfold logDropItem
  dsimp only
  repeat' split
  case isFalse.isFalse => exact Hub.keptIfRefused_ok _
  all_goals exact Hub.keptIfRefused_same _

/-! #### Parameters, the zone map, modes and notices -/

theorem paramSetItem_keptIfRefused (index : Byte) (v : Half) : h.KeptIfRefused (paramSetItem r index v h) := by
  unfold paramSetItem
  dsimp only
  repeat' split
  case h_2.isFalse.isFalse.isFalse => exact Hub.keptIfRefused_ok _
  all_goals exact Hub.keptIfRefused_same _

theorem zoneSetBoundsItem_keptIfRefused (a : Byte) (b : BoundArgs) : h.KeptIfRefused (zoneSetBoundsItem r a b h) := by
  unfold zoneSetBoundsItem
  repeat' split
  case h_2.isTrue => exact Hub.keptIfRefused_ok _
  all_goals exact Hub.keptIfRefused_same _

theorem zoneSetEntryItem_keptIfRefused (a e g : Byte) (f : AllowArgs) : h.KeptIfRefused (zoneSetEntryItem r a e g f h) := by
  unfold zoneSetEntryItem
  repeat' split
  case h_1 => exact Hub.keptIfRefused_ok _
  all_goals exact Hub.keptIfRefused_same _

theorem modeSetItem_keptIfRefused (mode : Byte) : h.KeptIfRefused (modeSetItem r mode h) := by
  have entered : h.KeptIfRefused h.enterRun := by
    unfold Hub.enterRun
    split
    · exact Hub.keptIfRefused_same _
    · exact Hub.keptIfRefused_ok _
  unfold modeSetItem
  repeat' split
  case h_2 => exact entered
  case h_3 => exact Hub.keptIfRefused_ok _
  all_goals exact Hub.keptIfRefused_same _

theorem clearStopItem_keptIfRefused : h.KeptIfRefused (clearStopItem r h) := by
  unfold clearStopItem
  repeat' split
  case isFalse.isFalse.isFalse.isFalse => exact Hub.keptIfRefused_ok _
  all_goals exact Hub.keptIfRefused_same _

theorem restartItem_keptIfRefused : h.KeptIfRefused (restartItem r h) := by
  unfold restartItem
  repeat' split
  case isFalse.isFalse => exact Hub.keptIfRefused_ok _
  all_goals exact Hub.keptIfRefused_same _

theorem noticeClearItem_keptIfRefused (kinds : KindBits) : h.KeptIfRefused (noticeClearItem r kinds h) := by
  unfold noticeClearItem
  split
  · exact Hub.keptIfRefused_same _
  · exact Hub.keptIfRefused_ok _

theorem noticeMaskItem_keptIfRefused (kinds : KindBits) : h.KeptIfRefused (noticeMaskItem r kinds h) := by
  unfold noticeMaskItem
  split
  · exact Hub.keptIfRefused_same _
  · exact Hub.keptIfRefused_ok _

end

/-- Every item that is refused leaves the part (R172). -/
theorem item_keptIfRefused (i : Instr) (code : Byte) (f : Hub → Hub × Answer) (h : Hub) (hi : itemOf i = some (code, f)) :
    h.KeptIfRefused (f h) := by
  cases i <;> simp only [itemOf, Option.some.injEq, Prod.mk.injEq, reduceCtorEq] at hi <;> obtain ⟨-, rfl⟩ := hi
  case claim => exact claimItem_keptIfRefused ..
  case release => exact releaseItem_keptIfRefused ..
  case handover => exact handoverItem_keptIfRefused ..
  case refresh => exact refreshItem_keptIfRefused ..
  case move => exact moveItem_keptIfRefused ..
  case stop => exact stopItem_keptIfRefused ..
  case allStop => exact Hub.keptIfRefused_ok _
  case axisRead => exact Hub.keptIfRefused_of_hub (axisReadItem_hub ..)
  case logRead => exact Hub.keptIfRefused_of_hub (logReadItem_hub ..)
  case zoneGet => exact Hub.keptIfRefused_of_hub (zoneGetItem_hub ..)
  case flowRead | baleRead | paramGet | status | noticeRead => exact Hub.keptIfRefused_same _
  case baleStart => exact baleStartItem_keptIfRefused ..
  case bindStart => exact bindStartItem_keptIfRefused ..
  case bindRetry => exact bindRetryItem_keptIfRefused ..
  case wrapStart => exact wrapStartItem_keptIfRefused ..
  case filmReset => exact filmResetItem_keptIfRefused ..
  case baleNote => exact baleNoteItem_keptIfRefused ..
  case baleDeclare => exact baleDeclareItem_keptIfRefused ..
  case logDrop => exact logDropItem_keptIfRefused ..
  case paramSet => exact paramSetItem_keptIfRefused ..
  case zoneSetBounds => exact zoneSetBoundsItem_keptIfRefused ..
  case zoneSetEntry => exact zoneSetEntryItem_keptIfRefused ..
  case modeSet => exact modeSetItem_keptIfRefused ..
  case clearStop => exact clearStopItem_keptIfRefused ..
  case restart => exact restartItem_keptIfRefused ..
  case noticeClear => exact noticeClearItem_keptIfRefused ..
  case noticeMask => exact noticeMaskItem_keptIfRefused ..

/-- Settles O4: the entry built carries the item's own outcome, and a refused item leaves the part it was given. -/
theorem refusedItemsChangeNothing : Obligations.RefusedItemsChangeNothing := by
  rintro i code f s t hi ht ⟨e, he, hrefused⟩
  rw [exec_of_itemOf i code f s hi, State.item_eq] at ht
  cases ht
  cases he
  have kept : (f s.hub).1 = s.hub := (item_keptIfRefused i code f s.hub hi).kept hrefused
  simp only [Hub.answered, kept]

end Sys2Proof.Machine

/-! ## Motion requests and the valves

MOVE, STOP and ALL_STOP by their checks, and the valve outputs through every step. The checks that a MOVE of a CLAIMED axis passes
before it asks for flow are bundled in `Hub.MovePasses`. -/

namespace Sys2Proof.Machine

/-! ### The valve outputs -/

section
variable {h k : Hub} {a : Axis} {x : AxisRecord}

/-- The outputs that belong to a record: on in its direction while it is MOVING, else off (R71). -/
def AxisRecord.valves (x : AxisRecord) : Valves := if x.state = .moving then .towards x.direction else .off

theorem Hub.valvesAgree_iff (h : Hub) : h.valvesAgree ↔ ∀ a, h.claims.valves.get a = (h.record a).valves := Iff.rfl

theorem AxisRecord.valves_resting (hx : x.state ≠ .moving) : x.valves = .off := if_neg hx

theorem Hub.valvesAgree.off (hv : h.valvesAgree) (ha : (h.record a).state ≠ .moving) : h.claims.valves.get a = .off :=
  (hv a).trans (AxisRecord.valves_resting ha)

/-- One axis changes, its outputs with its record. -/
theorem Hub.valvesAgree_set (hv : h.valvesAgree) (hr : ∀ b, k.record b = if b = a then x else h.record b)
    (hk : k.claims.valves = h.claims.valves.set a x.valves) : k.valvesAgree := by
  refine k.valvesAgree_iff.mpr fun b => ?_
  rw [hk, PerAxis.get_set, hr]
  split
  · rfl
  · exact hv b

/-- One record changes to one that belongs to the outputs its axis has. -/
theorem Hub.valvesAgree_same (hv : h.valvesAgree) (hr : ∀ b, k.record b = if b = a then x else h.record b)
    (hx : x.valves = (h.record a).valves) (hk : k.claims.valves = h.claims.valves) : k.valvesAgree :=
  Hub.valvesAgree_set hv hr (by rw [hx, ← h.valvesAgree_iff.mp hv a, PerAxis.set_get, hk])

/-- An axis that stops has its outputs turned off if it was MOVING, and else has them off already (R75). -/
theorem Hub.undoMotion_valves_off (a : Axis) (hv : h.valvesAgree) :
    (h.undoMotion a).claims.valves = h.claims.valves.set a .off := by
  rw [Hub.undoMotion_valves]
  split
  · rfl
  · rename_i ha; rw [← hv.off ha, PerAxis.set_get]

theorem Hub.endMotion_valvesAgree (a : Axis) (c : EndCause) (hv : h.valvesAgree) : (h.endMotion a c).valvesAgree :=
  Hub.valvesAgree_set hv (fun b => h.record_endMotion a b c)
    (by rw [Hub.endMotion_valves, Hub.undoMotion_valves_off a hv]; rfl)

theorem Hub.dropClaim_valvesAgree (a : Axis) (c : EndCause) (hv : h.valvesAgree) : (h.dropClaim a c).valvesAgree :=
  Hub.valvesAgree_set hv (fun b => h.record_dropClaim a b c)
    (by rw [Hub.dropClaim_valves, Hub.undoMotion_valves_off a hv]; rfl)

theorem Hub.grant_valvesAgree (a : Axis) (hv : h.valvesAgree) : (h.grant a).valvesAgree :=
  Hub.valvesAgree_set hv (h.record_grant a) (h.grant_valves a)

theorem Hub.pause_valvesAgree (a : Axis) (hv : h.valvesAgree) : (h.pause a).valvesAgree :=
  Hub.valvesAgree_set hv (h.record_pause a) (h.pause_valves a)

/-- Suspended motions have their outputs off, and the entries they join the queue with touch no output (R88). -/
theorem Hub.suspend_valvesAgree (vs : List Axis) (hv : h.valvesAgree) : (h.suspend vs).valvesAgree := by
  have paused : (vs.foldl Hub.pause h).valvesAgree := by
    induction vs generalizing h with
    | nil => exact hv
    | cons v vs ih => exact ih (Hub.pause_valvesAgree v hv)
  obtain ⟨q, -, e⟩ := Hub.enqueues_eq vs.reverse (vs.foldl Hub.pause h)
  rw [Hub.suspend, e]
  exact paused

theorem Hub.valvesAgree_of_claims (hv : h.valvesAgree) (hk : k.claims = h.claims) : k.valvesAgree :=
  k.valvesAgree_iff.mpr fun b => by rw [Hub.record, hk]; exact hv b

theorem Hub.valvesAgree_of_reset (hc : h.claims = .reset) : h.valvesAgree := fun a => by
  simp [Hub.record, hc, ClaimTable.reset, AxisRecord.reset, Valves.off]

theorem AxisRecord.tick_valves (y : AxisRecord) : y.tick.valves = y.valves := by
  unfold AxisRecord.tick; split <;> rfl

end

theorem valvesAgree_motionInvariant : MotionInvariant Hub.valvesAgree where
  same hv hk := Hub.valvesAgree_of_claims hv (congrArg MotionPart.claims hk)
  restarted _ _ := Hub.valvesAgree_of_reset rfl
  edit h a x hv hx := by
    refine Hub.valvesAgree_same hv (fun b => h.record_setRecord a b x) ?_ rfl
    by_cases hm : (h.record a).state = .moving
    · simp [AxisRecord.valves, hx.state, hm, hx.direction hm]
    · simp [AxisRecord.valves, hx.state, hm]
  claim h a r hv _ hs := by
    refine Hub.valvesAgree_same hv (fun b => h.record_setRecord a b _) ?_ rfl
    simp [AxisRecord.valves, hs]
  endMotion _ a c hv _ := Hub.endMotion_valvesAgree a c hv
  endEntry _ a c hv _ := Hub.endMotion_valvesAgree a c hv
  dropClaim _ a c hv := Hub.dropClaim_valvesAgree a c hv
  grant _ a hv _ _ := Hub.grant_valvesAgree a hv
  grantFromQueue h a hv _ _ := Hub.valvesAgree_set hv (h.record_grantFromQueue a) (h.grantFromQueue_valves a)
  queueMotion h a c hv hs := by
    refine Hub.valvesAgree_same hv (fun b => h.record_queueMotion a b c) ?_ rfl
    simp [AxisRecord.valves, hs]
  preempt _ a hv _ _ := Hub.grant_valvesAgree a (Hub.suspend_valvesAgree _ hv)
  setMode _ _ hv _ := hv
  setParams _ _ hv _ := hv
  passTime h hv := h.passTime.valvesAgree_iff.mpr fun a => by
    rw [Hub.record_passTime, AxisRecord.tick_valves]; exact hv a

/-- Settles O55: each operation on the motion part changes the outputs of an axis with its record, and so does every step. -/
theorem stepKeepsTheValves : Obligations.StepKeepsTheValves :=
  fun _ _ => valvesAgree_motionInvariant.step (fun l => Hub.valvesAgree_of_reset (powerOnHub_rests l).1) fun _ _ hv => hv

end Sys2Proof.Machine

namespace Sys2Proof.Machine

open Says

/-! ### A motion ended with the claim kept -/

/-- A motion ended with the claim kept is one update of a part that agrees (R75). -/
theorem Says.endMotion_kept (s : State) (a : Axis) (c : EndCause) (hs : sound s) :
    s.hub.endMotion a c = endedHub s.hub a (kept s (s.hub.record a) c) := s.hub.endMotion_eq a c hs.1 hs.2

/-- What stands after the motion of a held axis has ended with the claim kept, and the service has followed (R75, R90). -/
theorem Says.ended_kept (s : State) (a : Axis) (c : EndCause) (entry : Option Entry) (hs : sound s)
    (ha : (s.hub.record a).state ≠ .idle) :
    ended s { s with hub := { (endedHub s.hub a (kept s (s.hub.record a) c)).service with lastEntry := entry } } a
      (kept s (s.hub.record a) c) :=
  ended_of_motionAgrees s a _ entry hs.1 (endMotion_kept s a c hs ▸ Hub.endMotion_motionAgrees a c hs.1 ha) (by simp [kept])

/-- The service after an end leaves the axis, which has no entry any more (R91, R93). -/
theorem Says.record_endedHub_service (h : Hub) (a : Axis) (y : AxisRecord) : (endedHub h a y).service.record a = y := by
  have left (e : WaitEntry) (he : e ∈ (endedHub h a y).arbiter.queue) : e.axis ≠ a := ((mem_endedHub_queue ..).mp he).2
  obtain ⟨⟨record, -⟩, -⟩ := Hub.service_of_no_entry _ a left
  rw [record, endedHub_record, if_pos rfl]

/-! ### STOP -/

/-- A reply with the state and holder of an axis whose record is known (R76). -/
theorem item_of_stopAnswer {s : State} {code : Byte} {f : Hub → Hub × Answer} {k : Hub} {a : Axis} {v : Verdict}
    {x : AxisRecord} (hx : k.record a = x) (hf : f s.hub = k.stopAnswer a v) :
    s.item code f = replied s code k v x.stopData := item_of_answer (hf.trans (by rw [Hub.stopAnswer, hx]))

/-- STOP of an axis by its own code: the checks in their order (R76). -/
theorem stopItem_axisCode (r : Role) (a : Axis) (h : Hub) :
    stopItem r (axisCode a) h =
      if late (h.record a) r then h.stopAnswer a .late
      else if h.control.mode ≠ .run then h.stopAnswer a .wrongMode
      else if inFlight (h.record a) then
        (h.endMotion a (if (h.record a).holder = some r then .stopped else .stoppedOther)).service.stopAnswer a .ok
      else h.stopAnswer a .ok := by
  simp only [stopItem, argAxis_axisCode, AxisRecord.lateFor_iff, AxisState.inFlight_iff]

theorem stopOfAStandingAxis_holds : stopOfAStandingAxis := by
  intro s r
  refine ⟨fun axis hb => item_of_answer (f := stopItem r axis) (by rw [stopItem, argAxis_eq_none hb]; rfl), fun a => ?_⟩
  have item := stopItem_axisCode r a s.hub
  refine ⟨fun hl => ?_, fun hl hm => ?_, fun hl hm hf => ?_⟩
  · rw [if_pos hl] at item
    exact item_of_stopAnswer rfl item
  · rw [if_neg hl, if_pos hm] at item
    exact item_of_stopAnswer rfl item
  · rw [if_neg hl, if_neg (not_not_intro hm), if_neg hf] at item
    exact item_of_stopAnswer rfl item

theorem stopEndsTheMotion_holds : stopEndsTheMotion := by
  intro s r a hs hm hf
  have held : (s.hub.record a).state ≠ .idle := by rcases hf with e | e | e <;> simp [e]
  have item := stopItem_axisCode r a s.hub
  rw [if_neg fun hl => held hl.1, if_neg (not_not_intro hm), if_pos hf, endMotion_kept s a _ hs] at item
  exact ⟨_, item_of_stopAnswer (record_endedHub_service ..) item, ended_kept s a _ _ hs held, rfl⟩

/-- Settles O25: STOP by its checks and the state of the axis. -/
theorem stopIsTaken : Obligations.StopIsTaken := ⟨stopOfAStandingAxis_holds, stopEndsTheMotion_holds⟩

/-! ### ALL_STOP -/

/-- Motions ended one after another with one cause. -/
def Hub.endMotions (h : Hub) (l : List Axis) (c : EndCause) : Hub := l.foldl (fun h a => h.endMotion a c) h

/-- The records after several ends: an axis that is named ends, another stays (R75). -/
theorem Hub.record_endMotions (h : Hub) (l : List Axis) (c : EndCause) (b : Axis) :
    (h.endMotions l c).record b = if b ∈ l then (h.endMotion b c).record b else h.record b := by
  unfold Hub.endMotions
  induction l generalizing h with
  | nil => simp
  | cons a l ih =>
    rw [List.foldl_cons, ih]
    by_cases hb : b = a
    · subst hb
      by_cases hl : b ∈ l <;> simp [hl, Hub.record_endMotion, Hub.claimLease]
    · by_cases hl : b ∈ l <;> simp [hl, hb, Hub.record_endMotion, Hub.claimLease]

/-- What every single end keeps, several ends keep. -/
theorem Hub.endMotions_induction (P : Hub → Prop) (c : EndCause) (ends : ∀ h a, P h → P (Hub.endMotion h a c)) (h : Hub)
    (l : List Axis) (hp : P h) : P (h.endMotions l c) := by
  unfold Hub.endMotions
  induction l generalizing h with
  | nil => exact hp
  | cons a l ih => exact ih _ (ends h a hp)

/-- What several ends leave as it was (R75). -/
theorem Hub.endMotions_frame (h : Hub) (l : List Axis) (c : EndCause) :
    (h.endMotions l c).tracker = h.tracker ∧ (h.endMotions l c).sampler = h.sampler ∧
      (h.endMotions l c).settings = h.settings ∧
      ∀ r, ((h.endMotions l c).notices.get r).enable = (h.notices.get r).enable := by
  refine Hub.endMotions_induction (fun k => k.tracker = h.tracker ∧ k.sampler = h.sampler ∧ k.settings = h.settings ∧
    ∀ r, (k.notices.get r).enable = (h.notices.get r).enable) c (fun k a ⟨ht, hs, hk, he⟩ => ?_) h l ⟨rfl, rfl, rfl, fun _ => rfl⟩
  refine ⟨by simpa using ht, by simpa using hs, by simpa using hk, fun r => ?_⟩
  rw [Hub.endMotion_notices]
  exact (Hub.postTo_get _ _ _ r).2.trans (he r)

/-- The notice of every motion ended goes to the holder of its axis and to CT, and no later end takes it back (R75, R143). -/
theorem Hub.posted_endMotions (h : Hub) (c : EndCause) {l : List Axis} {a : Axis} (ha : a ∈ l) {r : Role}
    (hr : r ∈ (h.record a).holder.toList ++ [.ct]) : posted (h.endMotions l c) (.axis a) r := by
  unfold Hub.endMotions
  induction l generalizing h with
  | nil => cases ha
  | cons b l ih =>
    rw [List.foldl_cons]
    by_cases hb : a = b
    · subst hb
      have now : posted (h.endMotion a c) (.axis a) r := by
        simp only [posted, Hub.endMotion_notices]; exact posted_of_mem h (.axis a) hr
      exact Hub.endMotions_induction (fun k => posted k (.axis a) r) c (fun _ _ hk => Hub.keepsPosted_endMotion _ _ _ _ hk)
        _ l now
    · refine ih _ ((List.mem_cons.mp ha).resolve_left hb) ?_
      rwa [Hub.record_endMotion, if_neg hb]

/-- A part that agrees and where no axis is in flight has its flow pool at rest and its outputs off. -/
theorem Hub.rests_of_none_inFlight {h : Hub} (hm : h.motionAgrees) (hv : h.valvesAgree) (hn : ∀ a, ¬ inFlight (h.record a)) :
    h.arbiter = ⟨0, [], []⟩ ∧ ∀ a, h.claims.valves.get a = .off := by
  have granted : h.arbiter.grantOrder = [] := List.eq_nil_iff_forall_not_mem.mpr fun a ha =>
    hn a (.inr (.inl ((hm.granted_iff a).mp ha)))
  have waiting : h.arbiter.queue = [] := List.eq_nil_iff_forall_not_mem.mpr fun e he =>
    hn e.axis (((hm.entry_iff e.axis).mp ⟨e, he, rfl⟩).imp_right .inr)
  obtain ⟨-, -, ⟨-, -, flow, -⟩, -⟩ := hm
  refine ⟨?_, fun a => hv.off fun e => hn a (.inr (.inl e))⟩
  rw [granted] at flow
  cases e : h.arbiter
  simp_all

theorem Hub.mem_inFlightAxes (h : Hub) (a : Axis) : a ∈ h.inFlightAxes ↔ inFlight (h.record a) := by
  have every : a ∈ Axis.list := by cases a <;> decide
  rw [Hub.inFlightAxes, List.mem_filter, AxisState.inFlight_iff]
  exact and_iff_right every

/-- An axis is found again by its number (R1). -/
theorem Axis.ofNumber_number (a : Axis) : Axis.ofNumber a.number = some a := by cases a <;> rfl

theorem two_pow_dvd_sum {l : List Nat} {n : Nat} (hl : ∀ x ∈ l, n ≤ x) : 2 ^ n ∣ (l.map (2 ^ ·)).sum := by
  induction l with
  | nil => exact Nat.dvd_zero _
  | cons x l ih =>
    rw [List.map_cons, List.sum_cons]
    exact Nat.dvd_add (Nat.pow_dvd_pow 2 (hl x List.mem_cons_self)) (ih fun y hy => hl y (List.mem_cons_of_mem _ hy))

/-- A sum of powers of two with increasing exponents has bit n exactly for each exponent n. -/
theorem testBit_sum_two_pow {l : List Nat} (hl : l.Pairwise (· < ·)) (n : Nat) :
    (l.map (2 ^ ·)).sum.testBit n = true ↔ n ∈ l := by
  induction l with
  | nil => simp only [List.map_nil, List.sum_nil, Nat.zero_testBit, Bool.false_eq_true, List.not_mem_nil]
  | cons x l ih =>
    obtain ⟨above, hl⟩ := List.pairwise_cons.mp hl
    obtain ⟨k, hk⟩ : 2 ^ (x + 1) ∣ (l.map (2 ^ ·)).sum := two_pow_dvd_sum above
    have low : 2 ^ x < 2 ^ (x + 1) := Nat.pow_lt_pow_right (by decide) (Nat.lt_succ_self x)
    have rest := ih hl
    rw [hk, Nat.testBit_two_pow_mul, Bool.and_eq_true, decide_eq_true_iff] at rest
    rw [List.map_cons, List.sum_cons, hk, Nat.add_comm, Nat.testBit_two_pow_mul_add k low, List.mem_cons, ← rest]
    split
    · rw [Nat.testBit_two_pow, decide_eq_true_iff]
      exact ⟨fun e => .inl e.symm, fun e => (e.resolve_right fun ⟨h, _⟩ => by omega).symm⟩
    · exact ⟨fun e => .inr ⟨by omega, e⟩, fun e => (e.resolve_left fun h => by omega).2⟩

/-- The set of axes written as a character has bit n for axis n (R78). -/
theorem axisBits_getLsbD (p : Axis → Bool) (a : Axis) :
    (BitVec.ofNat 8 (((Axis.list.filter p).map (fun b => 2 ^ b.number)).sum)).getLsbD a.number = true ↔
      a ∈ Axis.list.filter p := by
  have increasing : ((Axis.list.filter p).map Axis.number).Pairwise (· < ·) :=
    List.Pairwise.sublist (List.filter_sublist.map Axis.number) (by decide)
  have bits := testBit_sum_two_pow increasing a.number
  rw [List.map_map, List.mem_map] at bits
  have small : a.number < 8 := by cases a <;> decide
  rw [BitVec.getLsbD_ofNat, decide_eq_true small, Bool.true_and]
  refine bits.trans ⟨fun ⟨b, hb, e⟩ => ?_, fun ha => ⟨a, ha, rfl⟩⟩
  have same : b = a := Option.some.inj (by rw [← Axis.ofNumber_number b, e, Axis.ofNumber_number])
  exact same ▸ hb

/-- ALL_STOP ends the motions, and the service finds nothing when their ends leave the queue empty (R78). -/
theorem allStopItem_of_queue_nil (r : Role) (h : Hub) (hq : (h.endMotions h.inFlightAxes .allStop).arbiter.queue = []) :
    allStopItem r h = (h.endMotions h.inFlightAxes .allStop,
      ⟨.ok, u8 ((h.inFlightAxes.map (fun a => 2 ^ a.number)).sum)⟩) := by
  change (if h.inFlightAxes.isEmpty then h.endMotions h.inFlightAxes .allStop
    else (h.endMotions h.inFlightAxes .allStop).service, _) = _
  rw [Hub.service_nil _ hq, ite_self]

/-- Settles O26: after the ends no axis is in flight, so that the agreement of claim table, arbiter and valves leaves the flow
pool empty and the outputs off, and the service nothing to do. -/
theorem allStopEndsEveryMotion : Obligations.AllStopEndsEveryMotion := by
  intro s r ⟨hm, hv⟩
  have held : ∀ a ∈ s.hub.inFlightAxes, (s.hub.record a).state ≠ .idle := fun a ha e => by
    have := (s.hub.mem_inFlightAxes a).mp ha
    simp [inFlight, e] at this
  have record (a : Axis) : (s.hub.endMotions s.hub.inFlightAxes .allStop).record a =
      if inFlight (s.hub.record a) then kept s (s.hub.record a) .allStop else s.hub.record a := by
    simp only [Hub.record_endMotions, Hub.mem_inFlightAxes, s.hub.endMotion_eq a .allStop hm hv, endedHub_record, if_true]
    rfl
  have none_inFlight (a : Axis) : ¬ inFlight ((s.hub.endMotions s.hub.inFlightAxes .allStop).record a) := by
    rw [record]
    split
    · simp [inFlight, kept]
    · assumption
  obtain ⟨arbiter, valves⟩ := Hub.rests_of_none_inFlight
    (motionAgrees_motionInvariant.endMotionsWith _ .allStop hm held)
    (valvesAgree_motionInvariant.endMotionsWith _ .allStop hv held) none_inFlight
  obtain ⟨tracker, sampler, settings, enable⟩ := s.hub.endMotions_frame s.hub.inFlightAxes .allStop
  refine ⟨_, item_of_answer (allStopItem_of_queue_nil r s.hub (congrArg Arbiter.queue arbiter)), record, valves, arbiter, tracker,
    sampler, settingsKept_of_settings s _ settings enable, fun a q hf hq => ?_, _, rfl, fun a => ?_⟩
  · have ended := (s.hub.mem_inFlightAxes a).mpr hf
    exact ⟨s.hub.posted_endMotions .allStop ended (by simp [hq]), s.hub.posted_endMotions .allStop ended (by simp)⟩
  · exact (axisBits_getLsbD _ a).trans (s.hub.mem_inFlightAxes a)

end Sys2Proof.Machine

namespace Sys2Proof.Machine

open Says

/-! ### MOVE -/

/-- A reply with the state, holder, lease and flow of an axis whose record is known, and what else it carries (R60). -/
theorem item_of_moveAnswer_more {s : State} {code : Byte} {f : Hub → Hub × Answer} {k : Hub} {a : Axis} {v : Verdict}
    {x : AxisRecord} {more : List Byte} (hx : k.record a = x) (hf : f s.hub = k.moveAnswer a v more) :
    s.item code f = replied s code k v (x.moveData ++ more) := item_of_answer (hf.trans (by rw [Hub.moveAnswer, hx]))

theorem item_of_moveAnswer {s : State} {code : Byte} {f : Hub → Hub × Answer} {k : Hub} {a : Axis} {v : Verdict}
    {x : AxisRecord} (hx : k.record a = x) (hf : f s.hub = k.moveAnswer a v []) :
    s.item code f = replied s code k v x.moveData := by
  rw [item_of_moveAnswer_more hx hf, List.append_nil]

/-- A direction's own code names it (R180). -/
theorem argDirection_code (d : Direction) : argDirection (BitVec.ofNat 8 d.code) = some d := by cases d <;> decide

/-- A class's own code names it (R180). -/
theorem argClass_code (c : MotionClass) : argClass (BitVec.ofNat 8 c.code) = some c := by cases c <;> decide

theorem sameKind_iff (a : Axis) (old new : Target) : sameKind a old new = true ↔ (a = .ring → (old = .run ↔ new = .run)) := by
  have ring : (a != .ring) = true ↔ a ≠ .ring := bne_iff_ne
  unfold sameKind
  rw [Bool.or_eq_true, ring]
  by_cases ha : a = .ring
  · cases old <;> cases new <;> simp [ha]
  · simp [ha]

/-- A MOVE by the holder of an axis in RUN: the states of the axis (R62). -/
theorem moveItem_held (h : Hub) {r : Role} {a : Axis} (d : Direction) (v : Half) (hold cls : Byte)
    (hm : h.control.mode = .run) (hs : (h.record a).state ≠ .idle) (hh : (h.record a).holder = some r) :
    moveItem r ⟨axisCode a, BitVec.ofNat 8 d.code, v, hold, cls⟩ h =
      if (h.record a).state = .claimed then h.newMotion a d (targetOf v) hold.toNat (argClass cls)
      else if (h.record a).state = .moving ∧ (h.record a).direction = d ∧ sameKind a (h.record a).target (targetOf v) = true
      then h.retarget a d (targetOf v) hold.toNat (argClass cls)
      else h.moveAnswer a .busy [] := by
  have late : ¬ (h.record a).lateFor r = true := fun e => hs ((AxisRecord.lateFor_iff _ _).mp e).1
  have target : argTarget v = targetOf v := rfl
  simp only [moveItem, argAxis_axisCode, argDirection_code, if_neg late, hh, hm, ne_eq, not_true_eq_false, if_false, target]
  cases (h.record a).state <;> simp

/-- A MOVE of a CLAIMED axis (R63 to R66). -/
theorem moveItem_claimed (h : Hub) {r : Role} {a : Axis} (d : Direction) (v : Half) (hold cls : Byte)
    (hm : h.control.mode = .run) (hs : (h.record a).state = .claimed) (hh : (h.record a).holder = some r) :
    moveItem r ⟨axisCode a, BitVec.ofNat 8 d.code, v, hold, cls⟩ h =
      h.newMotion a d (targetOf v) hold.toNat (argClass cls) := by
  rw [moveItem_held h d v hold cls hm (by simp [hs]) hh, if_pos hs]

/-- A MOVE of a MOVING axis in its direction and kind (R62, R67). -/
theorem moveItem_moving (h : Hub) {r : Role} {a : Axis} (v : Half) (hold cls : Byte) (hm : h.control.mode = .run)
    (hs : (h.record a).state = .moving) (hh : (h.record a).holder = some r)
    (hk : a = .ring → ((h.record a).target = .run ↔ targetOf v = .run)) :
    moveItem r ⟨axisCode a, BitVec.ofNat 8 (h.record a).direction.code, v, hold, cls⟩ h =
      h.retarget a (h.record a).direction (targetOf v) hold.toNat (argClass cls) := by
  rw [moveItem_held h _ v hold cls hm (by simp [hs]) hh, if_neg (by simp [hs]), if_pos ⟨hs, rfl, (sameKind_iff ..).mpr hk⟩]

/-! ### A MOVE that finds its target reached, or is taken as a retarget -/

/-- The end of the motion of a CLAIMED axis has no motion to undo (R65). -/
theorem Hub.endMotion_claimed (h : Hub) (a : Axis) (c : EndCause) (hs : (h.record a).state = .claimed) :
    h.endMotion a c =
      (h.setRecord a { h.record a with lease := h.claimLease, lastEnd := c }).postAxis a (h.record a).holder := by
  have nothing : h.undoMotion a = h := by rw [Hub.undoMotion, hs]
  simp only [Hub.endMotion, nothing, ← hs]

/-- A MOVE of a CLAIMED axis whose position is valid and whose values are legal (R63, R64). -/
theorem Hub.newMotion_lawful (h : Hub) {a : Axis} {d : Direction} {t : Target} {hold : Nat} {c : MotionClass}
    (hp : a = .ring ∨ (h.sense a).valid = true) (hf : h.valueFault a d t hold (some c) = none) :
    h.newMotion a d t hold (some c) =
      if h.targetReached a t then
        ((h.setRecord a ((h.record a).withMotion d t c hold)).endMotion a .arrived).moveAnswer a .ok []
      else h.takeUp a d t c hold := by
  have position : ¬ (a != .ring && !(h.sense a).valid) = true := by
    rcases hp with e | e <;> simp [e]
  simp only [Hub.newMotion, if_neg position, hf]

theorem moveArrivesImmediately_holds : moveArrivesImmediately := by
  intro s r a d v hold c hm hs hh hp hf ht y
  have arrived : (s.hub.setRecord a ((s.hub.record a).withMotion d (targetOf v) c hold.toNat)).endMotion a .arrived =
      (s.hub.setRecord a y).postTo (.axis a) [r, .ct] := by
    rw [Hub.endMotion_claimed _ _ _ (by simpa [AxisRecord.withMotion] using hs), Hub.record_setRecord_self,
      Hub.setRecord_setRecord]
    exact congrArg (fun holder => (s.hub.setRecord a y).postTo (.axis a) (Option.toList holder ++ [.ct])) hh
  have item := moveItem_claimed s.hub d v hold (BitVec.ofNat 8 c.code) hm hs hh
  rw [argClass_code, Hub.newMotion_lawful _ hp hf, if_pos ht, arrived] at item
  exact item_of_moveAnswer ((Hub.record_postTo ..).trans (Hub.record_setRecord_self ..)) item

/-- A retarget with legal values, in the class of the motion (R67). -/
theorem Hub.retarget_lawful (h : Hub) {a : Axis} {d : Direction} {t : Target} {hold : Nat}
    (hf : h.valueFault a d t hold (some (h.record a).cls) = none) :
    h.retarget a d t hold (some (h.record a).cls) =
      if h.targetReached a t then
        (((h.setRecord a { h.record a with target := t, holdTime := hold }).endMotion a .arrived).service).moveAnswer a .ok []
      else if h.targetKeptOut a t then h.moveAnswer a .interlock (u8 a.number)
      else (h.setRecord a { h.record a with target := t, holdTime := hold, lease := hold }).moveAnswer a .ok [] := by
  simp only [Hub.retarget, hf, ne_eq, not_true_eq_false, if_false]

theorem moveRetargets_holds : moveRetargets := by
  intro s r a v hold x hm hs hh hk hf ht ho
  have item := moveItem_moving s.hub v hold (BitVec.ofNat 8 x.cls.code) hm hs hh hk
  rw [argClass_code, Hub.retarget_lawful _ hf, if_neg (by simp [ht]), if_neg (by simp [ho])] at item
  exact item_of_moveAnswer (Hub.record_setRecord_self ..) item

/-- What the end of a motion makes of the part depends on the flow and the holder of the record alone. -/
theorem Says.endedHub_setRecord (h : Hub) (a : Axis) (x y : AxisRecord) (hf : x.flow = (h.record a).flow)
    (hh : x.holder = (h.record a).holder) : endedHub (h.setRecord a x) a y = endedHub h a y := by
  simp only [endedHub, Hub.record_setRecord_self, hf, hh]
  simp only [Hub.setRecord, PerAxis.set_set]

/-- The motion of a held axis ends with another target and hold time in its record (R67 step 3). -/
theorem Says.endMotion_retargeted (s : State) (a : Axis) (t : Target) (hold : Nat) (c : EndCause) (hs : sound s) :
    (s.hub.setRecord a { s.hub.record a with target := t, holdTime := hold }).endMotion a c =
      endedHub s.hub a (kept s { s.hub.record a with target := t, holdTime := hold } c) := by
  have stands : AxisRecord.StandsAs { s.hub.record a with target := t, holdTime := hold } (s.hub.record a) :=
    ⟨rfl, rfl, Iff.rfl, fun _ => rfl, fun _ => rfl⟩
  have edited := Hub.endMotion_eq _ a c (motionAgrees_motionInvariant.edit s.hub a _ hs.1 stands)
    (valvesAgree_motionInvariant.edit s.hub a _ hs.2 stands)
  rw [edited, Hub.record_setRecord_self]
  exact endedHub_setRecord s.hub a { s.hub.record a with target := t, holdTime := hold } _ rfl rfl

theorem retargetArrives_holds : retargetArrives := by
  intro s r a v hold hs x hm hmov hh hk hf ht
  have item := moveItem_moving s.hub v hold (BitVec.ofNat 8 x.cls.code) hm hmov hh hk
  rw [argClass_code, Hub.retarget_lawful _ hf, if_pos ht, endMotion_retargeted s a _ _ _ hs] at item
  exact item_of_moveAnswer (record_endedHub_service ..) item

/-- Settles O23: an immediate arrival, and a retarget by whether its target is reached. -/
theorem moveArrivesOrRetargets : Obligations.MoveArrivesOrRetargets :=
  ⟨moveArrivesImmediately_holds, moveRetargets_holds, retargetArrives_holds⟩

/-! ### A MOVE that asks for flow -/

/-- A MOVE of a CLAIMED axis passes every check before the flow (R60 to R65, R23, R24, R26). -/
structure Hub.MovePasses (h : Hub) (r : Role) (a : Axis) (d : Direction) (t : Target) (hold : Nat) (c : MotionClass) : Prop where
  run : h.control.mode = .run
  claimed : (h.record a).state = .claimed
  holder : (h.record a).holder = some r
  position : a = .ring ∨ (h.sense a).valid = true
  values : h.valueFault a d t hold (some c) = none
  notReached : h.targetReached a t = false
  notKeptOut : h.targetKeptOut a t = false
  permitted : h.permitted a d = true
  gate : h.gateHolds a d t = true

/-- The part with the values of a MOVE taken into the record, as it asks for flow (R66). -/
def Hub.asking (h : Hub) (a : Axis) (d : Direction) (t : Target) (c : MotionClass) (hold : Nat) : Hub :=
  h.setRecord a ((h.record a).withMotion d t c hold)

/-- What a MOVE that asked for flow is answered: OK when it was granted, QUEUED with the number of entries ahead else (R66, R86). -/
def Hub.flowAnswer (h : Hub) (a : Axis) : Option Nat → Hub × Answer
  | none => h.moveAnswer a .ok []
  | some ahead => h.moveAnswer a .queued (u8 ahead)

/-- A MOVE that passes its checks asks for flow (R66). -/
theorem moveItem_of_passes {h : Hub} {r : Role} {a : Axis} {d : Direction} {v : Half} {hold : Byte} {c : MotionClass}
    (hp : h.MovePasses r a d (targetOf v) hold.toNat c) :
    moveItem r ⟨axisCode a, BitVec.ofNat 8 d.code, v, hold, BitVec.ofNat 8 c.code⟩ h =
      ((h.asking a d (targetOf v) c hold.toNat).askFlow a c).1.flowAnswer a
        ((h.asking a d (targetOf v) c hold.toNat).askFlow a c).2 := by
  obtain ⟨own, others⟩ : h.ownZoneOk a d = true ∧ h.firstRefuser a d = none := by simpa [Hub.permitted] using hp.permitted
  rw [moveItem_claimed h d v hold _ hp.run hp.claimed hp.holder, argClass_code, Hub.newMotion_lawful _ hp.position hp.values,
    if_neg (by simp [hp.notReached]), Hub.takeUp, if_neg (by simp [hp.notKeptOut, own]), if_neg (by simp [hp.gate]), others]
  rcases e : (h.asking a d (targetOf v) c hold.toNat).askFlow a c with ⟨k, _ | ahead⟩ <;>
    (rw [Hub.asking] at e; simp only [e, Hub.flowAnswer])

/-- A NORMAL motion goes at once when the queue is empty and it fits (R86). -/
theorem Hub.askFlow_normal_granted (h : Hub) (a : Axis) (hq : h.arbiter.queue = []) (hf : h.fits a = true) :
    h.askFlow a .normal = (h.grant a, none) := by
  simp only [Hub.askFlow, hq, hf, List.isEmpty_nil, Bool.and_self, if_true]

/-- A NORMAL motion that finds the queue not empty, or does not fit, is queued behind all the entries (R84, R86). -/
theorem Hub.askFlow_normal_queued (h : Hub) (a : Axis) (hn : h.arbiter.queue ≠ [] ∨ h.fits a = false) :
    h.askFlow a .normal = (h.queueMotion a .normal, some h.arbiter.queue.length) := by
  have wait : ¬ (h.arbiter.queue.isEmpty && h.fits a) = true := by
    rcases hn with e | e <;> simp [e]
  simp only [Hub.askFlow, if_neg wait, Hub.entriesAhead]

/-! #### Granted at once -/

@[simp] theorem Hub.grant_settings (h : Hub) (a : Axis) : (h.grant a).settings = h.settings := by
  have beside : (h.grant a).tracker.besideGrants = h.tracker.besideGrants := by
    rw [Hub.grant, Hub.reportGrant_besideGrants]; rfl
  simp [Hub.settings, beside]

theorem Hub.grant_enable (h : Hub) (a : Axis) (r : Role) :
    ((h.grant a).notices.get r).enable = (h.notices.get r).enable :=
  (Hub.quietOn_grant (m := .sensorFault) a (by decide) (by decide) r).1

/-- What is reported to the tracker depends on the tracker and on the input of FEED HOLD alone (R107, R117). -/
theorem Says.reported_congr {h l k : Hub} {a : Axis} {d : Direction} (ht : l.tracker = h.tracker) (hi : l.inputs = h.inputs)
    (hr : reported l k a d) : reported h k a d := by
  simpa only [reported, Hub.feedHoldAgrees, Hub.feedHoldCondition, ht, hi] using hr

/-- A grant is reported to the tracker with the direction of the record (R72, R107). -/
theorem Hub.grant_reported (h : Hub) (a : Axis) : reported h (h.grant a) a (h.record a).direction := by
  rw [Hub.grant]
  refine reported_congr ?_ ?_ (Hub.reportGrant_reported _ a _) <;> rfl

/-- A grant of another motion than TAILGATE or TILT in EXTEND leaves the tracker and posts nothing (R72). -/
theorem Hub.grant_of_other (h : Hub) (a : Axis) (h1 : ¬ (a = .tailgate ∧ (h.record a).direction = .extend))
    (h2 : ¬ (a = .tilt ∧ (h.record a).direction = .extend)) :
    (h.grant a).tracker = h.tracker ∧ (h.grant a).notices = h.notices := by
  rw [Hub.grant, Hub.reportGrant_of_other _ a _ h1 h2]
  exact ⟨rfl, rfl⟩

/-- Settles O19: the MOVE asks for flow, and the grant is what it is answered with. -/
theorem moveIsGrantedAtOnce : Obligations.MoveIsGrantedAtOnce := by
  intro s r a d v hold hm hs hh hp hv ht ho hperm hg hq hfit y
  have passes : s.hub.MovePasses r a d (targetOf v) hold.toNat .normal := ⟨hm, hs, hh, hp, hv, ht, ho, hperm, hg⟩
  let k := s.hub.asking a d (targetOf v) .normal hold.toNat
  have asked : k.record a = (s.hub.record a).withMotion d (targetOf v) .normal hold.toNat := Hub.record_setRecord_self ..
  have dir : (k.record a).direction = d := by rw [asked]; rfl
  have others {b : Axis} (hb : b ≠ a) : k.record b = s.hub.record b := Hub.record_setRecord_of_ne _ _ hb
  have record : (k.grant a).record a = y := by rw [Hub.record_grant, if_pos rfl, asked]; rfl
  have item := moveItem_of_passes passes
  rw [k.askFlow_normal_granted a hq (decide_eq_true hfit)] at item
  have told := k.grant_reported a
  rw [dir] at told
  refine ⟨_, item_of_moveAnswer record item, record, ?_, ?_, fun b hb => ⟨?_, ?_⟩, fun h1 h2 => ?_, told, k.grant_sampler a,
    settingsKept_of_settings s _ (k.grant_settings a) (k.grant_enable a), rfl⟩
  · exact (congrArg (·.get a) (k.grant_valves a)).trans (by rw [PerAxis.get_set_self, dir])
  · exact (k.grant_arbiter a).trans (congrArg (Arbiter.mk _ _) hq)
  · exact (k.record_grant a b).trans ((if_neg hb).trans (others hb))
  · exact (congrArg (·.get b) (k.grant_valves a)).trans (PerAxis.get_set_of_ne _ _ hb)
  · exact k.grant_of_other a (by rwa [dir]) (by rwa [dir])

/-! #### Queued -/

theorem Hub.enqueue_setRecord (h : Hub) (a b : Axis) (c : WaitClass) (x : AxisRecord) :
    (h.setRecord b x).enqueue a c = (h.enqueue a c).setRecord b x := rfl

/-- A NORMAL motion that cannot go at once: its entry at the tail and its record WAITING, with the values of its MOVE (R66, R84,
R86). -/
theorem Hub.asking_askFlow_queued (h : Hub) (a : Axis) (d : Direction) (t : Target) (hold : Nat)
    (hn : h.arbiter.queue ≠ [] ∨ h.fits a = false) :
    (h.asking a d t .normal hold).askFlow a .normal =
      ((h.enqueue a .normal).setRecord a
        { (h.record a).withMotion d t .normal hold with state := .waiting, lease := h.claimLease },
        some h.arbiter.queue.length) := by
  rw [(h.asking a d t .normal hold).askFlow_normal_queued a hn, Hub.queueMotion, Hub.asking, Hub.enqueue_setRecord,
    Hub.setRecord_setRecord, Hub.record_setRecord_self]
  rfl

/-- Settles O20: the MOVE asks for flow, and joins the queue at its tail. -/
theorem moveIsQueued : Obligations.MoveIsQueued := by
  intro s r a d v hold hm hs hh hp hv ht ho hperm hg hn y
  have item := moveItem_of_passes (h := s.hub) ⟨hm, hs, hh, hp, hv, ht, ho, hperm, hg⟩
  have tight : s.hub.params.flowBudget < s.hub.params.demand.get a + s.hub.arbiter.inUse → s.hub.fits a = false :=
    fun e => decide_eq_false (Nat.not_le.mpr e)
  rw [s.hub.asking_askFlow_queued a d (targetOf v) hold.toNat (hn.imp_right tight)] at item
  exact item_of_moveAnswer_more (Hub.record_setRecord_self ..) item

end Sys2Proof.Machine

namespace Sys2Proof.Machine

open Says

/-! ### An URGENT MOVE that asks for flow

The pauses and the RESUME entries that follow them are `Hub.suspend`; what it makes of the part is said once, and the pre-emption is
a grant after it. -/

/-! #### Entries that join one after another behind the last RESUME entry -/

section
variable {α : Type} (p : α → Bool) (l : List α) {e : α}

theorem takeWhile_inserted (he : p e = true) : (l.takeWhile p ++ e :: l.dropWhile p).takeWhile p = l.takeWhile p ++ [e] := by
  induction l with
  | nil => simp [he]
  | cons x l ih => by_cases hx : p x = true <;> simp [hx, he, ih]

theorem dropWhile_inserted (he : p e = true) : (l.takeWhile p ++ e :: l.dropWhile p).dropWhile p = l.dropWhile p := by
  induction l with
  | nil => simp [he]
  | cons x l ih => by_cases hx : p x = true <;> simp [hx, he, ih]

end

/-- The queue with RESUME entries joined in this order: behind the last RESUME entry, before the first NORMAL one (R84). -/
def joinResumes (q l : List WaitEntry) : List WaitEntry :=
  q.takeWhile (fun e => e.cls ≠ .normal) ++ l ++ q.dropWhile (fun e => e.cls ≠ .normal)

theorem joinResumes_nil (q : List WaitEntry) : joinResumes q [] = q := by
  rw [joinResumes, List.append_nil, List.takeWhile_append_dropWhile]

/-- The first to join stands before the others. -/
theorem joinResumes_cons (q l : List WaitEntry) {e : WaitEntry} (he : e.cls = .resume) :
    joinResumes q (e :: l) = joinResumes (joinQueue q e) l := by
  have stays : decide (e.cls ≠ .normal) = true := by simp [he]
  have front := takeWhile_inserted (fun x : WaitEntry => decide (x.cls ≠ .normal)) q stays
  have back := dropWhile_inserted (fun x : WaitEntry => decide (x.cls ≠ .normal)) q stays
  have joined : joinQueue q e = q.takeWhile (fun e => e.cls ≠ .normal) ++ e :: q.dropWhile (fun e => e.cls ≠ .normal) := by
    simp only [joinQueue, he]
  simp only [joinResumes, joined, front, back, List.append_assoc, List.cons_append, List.nil_append]

theorem Hub.enqueues_resume (l : List Axis) (h : Hub) :
    l.foldl (fun h v => h.enqueue v .resume) h =
      { h with arbiter := { h.arbiter with queue := joinResumes h.arbiter.queue (l.map h.resumeEntry) } } := by
  induction l generalizing h with
  | nil => rw [List.map_nil, joinResumes_nil]; rfl
  | cons v l ih => rw [List.foldl_cons, ih, List.map_cons, joinResumes_cons _ _ rfl]; rfl

/-! #### What a suspension makes of the part -/

section
variable {h : Hub} (vs : List Axis)

/-- The records after several pauses (R88). -/
theorem Hub.record_pauses (h : Hub) (b : Axis) :
    (vs.foldl Hub.pause h).record b =
      if b ∈ vs then { h.record b with state := .paused, flow := 0, lease := h.claimLease } else h.record b := by
  induction vs generalizing h with
  | nil => rfl
  | cons v vs ih =>
    have lease : (h.pause v).claimLease = h.claimLease := by simp [Hub.claimLease]
    rw [List.foldl_cons, ih, lease, Hub.record_pause]
    by_cases hv : b = v
    · subst hv; by_cases hb : b ∈ vs <;> simp [hb]
    · simp [hv]

/-- The outputs after several pauses (R88). -/
theorem Hub.pauses_valves (h : Hub) (b : Axis) :
    (vs.foldl Hub.pause h).claims.valves.get b = if b ∈ vs then .off else h.claims.valves.get b := by
  induction vs generalizing h with
  | nil => rfl
  | cons v vs ih =>
    rw [List.foldl_cons, ih, Hub.pause_valves, PerAxis.get_set]
    by_cases hv : b = v <;> simp [hv]

/-- Paused axes leave the grant order (R82, R88). -/
theorem Hub.pauses_grantOrder (h : Hub) :
    (vs.foldl Hub.pause h).arbiter.grantOrder = h.arbiter.grantOrder.filter (fun b => b ∉ vs) := by
  induction vs generalizing h with
  | nil => exact (List.filter_eq_self.mpr fun _ _ => decide_eq_true List.not_mem_nil).symm
  | cons v vs ih =>
    rw [List.foldl_cons, ih, Hub.pause_arbiter, List.filter_filter]
    exact List.filter_congr fun b _ => by simp [Bool.and_comm]

theorem Hub.pause_enable (h : Hub) (a : Axis) (r : Role) :
    ((h.pause a).notices.get r).enable = (h.notices.get r).enable := (Hub.postTo_get _ _ _ r).2

/-- What several pauses leave as it was (R88). -/
theorem Hub.pauses_frame (h : Hub) :
    (vs.foldl Hub.pause h).tracker = h.tracker ∧ (vs.foldl Hub.pause h).settings = h.settings ∧
      ∀ r, ((vs.foldl Hub.pause h).notices.get r).enable = (h.notices.get r).enable := by
  induction vs generalizing h with
  | nil => exact ⟨rfl, rfl, fun _ => rfl⟩
  | cons v vs ih =>
    obtain ⟨tracker, settings, enable⟩ := ih (h.pause v)
    exact ⟨tracker.trans (h.pause_tracker v), settings.trans (by simp [Hub.settings]),
      fun r => (enable r).trans (h.pause_enable v r)⟩

/-- The notice of a pause goes to the holder of the axis and to CT (R88, R143). -/
theorem Hub.posted_pause (h : Hub) (a : Axis) {r : Role} (hr : r ∈ (h.record a).holder.toList ++ [.ct]) :
    posted (h.pause a) (.axis a) r := by
  refine posted_of_mem _ _ ?_
  rwa [Hub.record_returnFlow, if_pos rfl]

theorem Hub.keepsPosted_pauses (h : Hub) : h.KeepsPosted (vs.foldl Hub.pause h) := by
  induction vs generalizing h with
  | nil => exact fun _ _ hp => hp
  | cons v vs ih =>
    refine Hub.KeepsPosted.trans ?_ (ih (h.pause v))
    refine Hub.KeepsPosted.trans ?_ (Hub.keepsPosted_postTo _ _)
    exact Hub.keepsPosted_of_notices rfl

theorem Hub.posted_pauses (h : Hub) {v : Axis} (hv : v ∈ vs) {r : Role} (hr : r ∈ (h.record v).holder.toList ++ [.ct]) :
    posted (vs.foldl Hub.pause h) (.axis v) r := by
  induction vs generalizing h with
  | nil => cases hv
  | cons w vs ih =>
    rw [List.foldl_cons]
    by_cases hw : v = w
    · subst hw; exact Hub.keepsPosted_pauses vs _ _ r (h.posted_pause v hr)
    · refine ih _ ((List.mem_cons.mp hv).resolve_left hw) ?_
      rwa [Hub.record_pause, if_neg hw]

/-- A suspension is the pauses, with the RESUME entries in the queue (R88). -/
theorem Hub.suspend_eq (h : Hub) :
    h.suspend vs = { vs.foldl Hub.pause h with
      arbiter := { (vs.foldl Hub.pause h).arbiter with
        queue := joinResumes h.arbiter.queue (vs.reverse.map h.resumeEntry) } } := by
  have params : (vs.foldl Hub.pause h).params = h.params := congrArg Settings.params (Hub.pauses_frame vs h).2.1
  have entry : (vs.foldl Hub.pause h).resumeEntry = h.resumeEntry := funext fun b => by simp [Hub.resumeEntry, params]
  rw [Hub.suspend, Hub.enqueues_resume, Hub.pauses_queue, entry]

theorem Hub.record_suspend (h : Hub) (b : Axis) :
    (h.suspend vs).record b =
      if b ∈ vs then { h.record b with state := .paused, flow := 0, lease := h.claimLease } else h.record b := by
  rw [Hub.suspend_eq]; exact Hub.record_pauses vs h b

theorem Hub.suspend_valves (h : Hub) (b : Axis) :
    (h.suspend vs).claims.valves.get b = if b ∈ vs then .off else h.claims.valves.get b := by
  rw [Hub.suspend_eq]; exact Hub.pauses_valves vs h b

/-- The flow pool after a suspension of MOVING axes (R88). -/
theorem Hub.suspend_arbiter (hm : h.motionAgrees) (hn : vs.Nodup) (hv : ∀ v ∈ vs, (h.record v).state = .moving) :
    (h.suspend vs).arbiter = {
      inUse := h.arbiter.inUse - (vs.map h.demand).sum,
      grantOrder := h.arbiter.grantOrder.filter (fun b => b ∉ vs),
      queue := joinResumes h.arbiter.queue (vs.reverse.map h.resumeEntry) } := by
  obtain ⟨-, freed, -⟩ := Hub.suspend_motionAgrees vs hm hn hv
  have inUse : (h.suspend vs).arbiter.inUse = h.arbiter.inUse - (vs.map h.demand).sum := by omega
  rw [← inUse, ← Hub.pauses_grantOrder vs h, Hub.suspend_eq]

theorem Hub.suspend_frame (h : Hub) :
    (h.suspend vs).tracker = h.tracker ∧ (h.suspend vs).settings = h.settings ∧
      ∀ r, ((h.suspend vs).notices.get r).enable = (h.notices.get r).enable := by
  rw [Hub.suspend_eq]; exact Hub.pauses_frame vs h

theorem Hub.suspend_demand : (h.suspend vs).demand = h.demand := by
  have params : (h.suspend vs).params = h.params := congrArg Settings.params (Hub.suspend_frame vs h).2.1
  exact funext fun b => by simp [Hub.demand, params]

theorem Hub.posted_suspend (h : Hub) {v : Axis} (hv : v ∈ vs) {r : Role} (hr : r ∈ (h.record v).holder.toList ++ [.ct]) :
    posted (h.suspend vs) (.axis v) r := by
  rw [Hub.suspend_eq]; exact Hub.posted_pauses vs h hv hr

end

/-! #### The motions to be paused -/

section
variable {h : Hub} {a : Axis}

/-- The motions that an URGENT motion of `a` pauses (R88). -/
def Hub.pausedFor (h : Hub) (a : Axis) : List Axis := h.victims (h.demand a) h.pausable 0

/-- The part when an URGENT motion has been granted after pauses, and before the service (R88). -/
def Hub.preempted (h : Hub) (a : Axis) : Hub := (h.suspend (h.pausedFor a)).grant a

/-- Of a list, victims are taken from its front, and no more than are needed (R88). -/
theorem Hub.victims_eq_take (h : Hub) (need : Nat) (l : List Axis) (freed : Nat) :
    ∃ n, h.victims need l freed = l.take n ∧
      ∀ m, m < n → h.params.flowBudget + freed + ((l.take m).map h.demand).sum < need + h.arbiter.inUse := by
  induction l generalizing freed with
  | nil => exact ⟨0, rfl, fun m hm => absurd hm (Nat.not_lt_zero m)⟩
  | cons v l ih =>
    unfold Hub.victims
    split
    · exact ⟨0, rfl, fun m hm => absurd hm (Nat.not_lt_zero m)⟩
    · rename_i short
      obtain ⟨n, taken, least⟩ := ih (freed + h.demand v)
      refine ⟨n + 1, by rw [taken, List.take_succ_cons], fun m hm => ?_⟩
      cases m with
      | zero => simpa using short
      | succ m =>
        have := least m (by omega)
        rw [List.take_succ_cons, List.map_cons, List.sum_cons]
        omega

theorem Hub.pausable_nodup (hm : h.motionAgrees) : h.pausable.Nodup :=
  (List.reverse_perm _).nodup_iff.mpr (hm.granted_nodup.filter _)

theorem Hub.pausedFor_nodup (hm : h.motionAgrees) : (h.pausedFor a).Nodup :=
  (Hub.pausable_nodup hm).sublist (Hub.victims_sublist ..)

/-- What is paused is MOVING, NORMAL and has a DEMAND above 0 (R87, R88). -/
theorem Hub.pausedFor_spec (hm : h.motionAgrees) {b : Axis} (hb : b ∈ h.pausedFor a) :
    (h.record b).state = .moving ∧ (h.record b).cls = .normal ∧ 0 < h.demand b := by
  have pausable : b ∈ h.pausable := (Hub.victims_sublist ..).subset hb
  obtain ⟨granted, kind⟩ := List.mem_filter.mp (List.mem_reverse.mp pausable)
  exact ⟨(hm.granted_iff b).mp granted, of_decide_eq_true kind⟩

/-- A motion of DEMAND 0 frees nothing, so that it does not matter whether it counts. -/
theorem sum_filter_pos (p : Axis → Prop) [DecidablePred p] (f : Axis → Nat) (l : List Axis) :
    ((l.filter (fun b => p b ∧ 0 < f b)).map f).sum = ((l.filter (fun b => p b)).map f).sum := by
  induction l with
  | nil => rfl
  | cons b l ih =>
    rw [List.filter_cons, List.filter_cons]
    by_cases hp : p b
    · by_cases hf : 0 < f b
      · simp only [hp, hf, and_self, decide_true, if_true, List.map_cons, List.sum_cons, ih]
      · have nothing : f b = 0 := Nat.eq_zero_of_not_pos hf
        simp only [hp, nothing, Nat.lt_irrefl, and_false, decide_false, decide_true, Bool.false_eq_true, if_false, if_true,
          List.map_cons, List.sum_cons, ih, Nat.zero_add]
    · simp only [hp, false_and, decide_false, Bool.false_eq_true, if_false, ih]

theorem Hub.pausable_sum (h : Hub) :
    (h.pausable.map h.demand).sum =
      ((h.arbiter.grantOrder.filter (fun b => (h.record b).cls = .normal)).map h.demand).sum := by
  rw [Hub.pausable, List.map_reverse, List.sum_reverse]
  exact sum_filter_pos (fun b => (h.record b).cls = .normal) h.demand _

end

/-! #### Queued, granted, or granted after pauses -/

section
variable {h : Hub} {a : Axis}

/-- An URGENT motion behind an URGENT entry, or too large for every pause, is queued behind the URGENT entries (R84, R87). -/
theorem Hub.askFlow_urgent_queued (hn : (∃ e ∈ h.arbiter.queue, e.cls = .urgent) ∨
      h.params.flowBudget + (h.pausable.map h.demand).sum < h.demand a + h.arbiter.inUse) :
    h.askFlow a .urgent =
      (h.queueMotion a .urgent, some (h.arbiter.queue.filter (fun e => decide (e.cls = .urgent))).length) := by
  by_cases hu : ∃ e ∈ h.arbiter.queue, e.cls = .urgent
  · have behind : h.arbiter.queue.any (fun e => decide (e.cls = .urgent)) = true := by simpa using hu
    simp only [Hub.askFlow, behind, if_true, Hub.entriesAhead]
  · have large := hn.resolve_left hu
    have unfit : h.fits a = false := decide_eq_false (by omega)
    simp only [Hub.askFlow, unfit, Nat.not_le.mpr large, Bool.false_eq_true, if_false, ite_self, Hub.entriesAhead]

theorem Hub.no_urgent_entry (hu : ∀ e ∈ h.arbiter.queue, e.cls ≠ .urgent) :
    ¬ h.arbiter.queue.any (fun e => decide (e.cls = .urgent)) = true := by simpa using hu

/-- An URGENT motion that fits goes past the RESUME and NORMAL entries (R87). -/
theorem Hub.askFlow_urgent_granted (hu : ∀ e ∈ h.arbiter.queue, e.cls ≠ .urgent)
    (hf : h.demand a + h.arbiter.inUse ≤ h.params.flowBudget) : h.askFlow a .urgent = (h.grant a, none) := by
  have fit : h.fits a = true := decide_eq_true hf
  simp only [Hub.askFlow, if_neg (Hub.no_urgent_entry hu), fit, if_true]

/-- An URGENT motion that fits after pauses is granted after them, and the service follows (R87, R88). -/
theorem Hub.askFlow_urgent_preempts (hu : ∀ e ∈ h.arbiter.queue, e.cls ≠ .urgent)
    (hn : h.params.flowBudget < h.demand a + h.arbiter.inUse)
    (hl : h.demand a + h.arbiter.inUse ≤ h.params.flowBudget + (h.pausable.map h.demand).sum) :
    h.askFlow a .urgent = ((h.preempted a).service, none) := by
  have unfit : h.fits a = false := decide_eq_false (Nat.not_le.mpr hn)
  simp only [Hub.askFlow, if_neg (Hub.no_urgent_entry hu), unfit, Bool.false_eq_true, if_false, if_pos hl]
  rfl

theorem Hub.keepsPosted_grant : h.KeepsPosted (h.grant a) := by
  refine Hub.KeepsPosted.trans ?_ (Hub.keepsPosted_reportGrant _ _)
  exact Hub.keepsPosted_of_notices rfl

end

/-! #### The part that has been pre-empted -/

section
variable {h : Hub} {a : Axis}

theorem Hub.not_mem_pausedFor (hm : h.motionAgrees) {b : Axis}
    (hb : (h.record b).state ≠ .moving ∨ (h.record b).cls = .urgent ∨ h.demand b = 0) : b ∉ h.pausedFor a := fun hmem => by
  obtain ⟨moving, normal, demand⟩ := Hub.pausedFor_spec hm hmem
  rcases hb with e | e | e
  · exact e moving
  · simp [normal] at e
  · omega

/-- The axis of the motion granted is none of those paused for it. -/
theorem Hub.not_mem_pausedFor_self (hm : h.motionAgrees) (ha : (h.record a).state = .claimed) : a ∉ h.pausedFor a :=
  Hub.not_mem_pausedFor hm (.inl (by simp [ha]))

theorem Hub.record_preempted_self (hm : h.motionAgrees) (ha : (h.record a).state = .claimed) :
    (h.preempted a).record a =
      { h.record a with state := .moving, flow := h.demand a, lease := (h.record a).holdTime } := by
  rw [Hub.preempted, Hub.record_grant, if_pos rfl, Hub.record_suspend, if_neg (Hub.not_mem_pausedFor_self hm ha),
    Hub.suspend_demand]

theorem Hub.preempted_valves_self (hm : h.motionAgrees) (ha : (h.record a).state = .claimed) :
    (h.preempted a).claims.valves.get a = .towards (h.record a).direction := by
  rw [Hub.preempted, Hub.grant_valves, PerAxis.get_set_self, Hub.record_suspend,
    if_neg (Hub.not_mem_pausedFor_self hm ha)]

/-- Another axis is paused, or stays as it was. -/
theorem Hub.record_preempted_of_ne {b : Axis} (hb : b ≠ a) :
    (h.preempted a).record b =
      if b ∈ h.pausedFor a then { h.record b with state := .paused, flow := 0, lease := h.claimLease } else h.record b := by
  rw [Hub.preempted, Hub.record_grant, if_neg hb, Hub.record_suspend]

theorem Hub.preempted_valves_of_ne {b : Axis} (hb : b ≠ a) :
    (h.preempted a).claims.valves.get b = if b ∈ h.pausedFor a then .off else h.claims.valves.get b := by
  rw [Hub.preempted, Hub.grant_valves, PerAxis.get_set_of_ne _ _ hb, Hub.suspend_valves]

/-- The flow pool after the pauses and the grant. What is freed was in use, so that it can be taken off after the grant as well (R82,
R88). -/
theorem Hub.preempted_arbiter (hm : h.motionAgrees) :
    (h.preempted a).arbiter = {
      inUse := h.demand a + h.arbiter.inUse - ((h.pausedFor a).map h.demand).sum,
      grantOrder := h.arbiter.grantOrder.filter (fun b => b ∉ h.pausedFor a) ++ [a],
      queue := joinResumes h.arbiter.queue ((h.pausedFor a).reverse.map h.resumeEntry) } := by
  have moving : ∀ v ∈ h.pausedFor a, (h.record v).state = .moving := fun v hv => (Hub.pausedFor_spec hm hv).1
  obtain ⟨-, freed, -⟩ := Hub.suspend_motionAgrees (h.pausedFor a) hm (Hub.pausedFor_nodup hm) moving
  have inUse : h.arbiter.inUse - ((h.pausedFor a).map h.demand).sum + h.demand a =
      h.demand a + h.arbiter.inUse - ((h.pausedFor a).map h.demand).sum := by omega
  rw [Hub.preempted, Hub.grant_arbiter, Hub.suspend_demand,
    Hub.suspend_arbiter _ hm (Hub.pausedFor_nodup hm) moving, ← inUse]

theorem Hub.preempted_settings : (h.preempted a).settings = h.settings :=
  (Hub.grant_settings _ a).trans (Hub.suspend_frame _ h).2.1

theorem Hub.preempted_enable (r : Role) : ((h.preempted a).notices.get r).enable = (h.notices.get r).enable :=
  (Hub.grant_enable _ a r).trans ((Hub.suspend_frame _ h).2.2 r)

theorem Hub.preempted_sampler : (h.preempted a).sampler = h.sampler :=
  (Hub.grant_sampler _ a).trans (h.suspend_sampler _)

/-- The grant after the pauses is reported to the tracker (R72, R107). -/
theorem Hub.preempted_reported (hm : h.motionAgrees) (ha : (h.record a).state = .claimed) :
    reported h (h.preempted a) a (h.record a).direction := by
  obtain ⟨tracker, settings, -⟩ := Hub.suspend_frame (h.pausedFor a) h
  have told := (h.suspend (h.pausedFor a)).grant_reported a
  rw [Hub.record_suspend, if_neg (Hub.not_mem_pausedFor_self hm ha)] at told
  exact reported_congr tracker (congrArg Settings.inputs settings) told

theorem Hub.posted_preempted {v : Axis} (hv : v ∈ h.pausedFor a) {r : Role}
    (hr : r ∈ (h.record v).holder.toList ++ [.ct]) : posted (h.preempted a) (.axis v) r :=
  Hub.keepsPosted_grant _ r (Hub.posted_suspend _ h hv hr)

/-- The service after a pre-emption leaves the axis granted, and every axis that was neither queued nor paused (R91). -/
theorem Hub.preempted_service_of_standing (hk : (h.preempted a).motionAgrees) {b : Axis}
    (hw : ((h.preempted a).record b).state ≠ .waiting) (hp : ((h.preempted a).record b).state ≠ .paused) :
    (h.preempted a).service.record b = (h.preempted a).record b ∧
      (h.preempted a).service.claims.valves.get b = (h.preempted a).claims.valves.get b :=
  (Hub.service_of_no_entry _ b fun e he hb => ((hk.entry_iff b).mp ⟨e, he, hb⟩).elim hw hp).1

end

/-! #### The MOVE -/

section
variable {h : Hub} {a : Axis} {d : Direction} {t : Target} {c : MotionClass} {hold : Nat}

theorem Hub.record_asking_self : (h.asking a d t c hold).record a = (h.record a).withMotion d t c hold :=
  Hub.record_setRecord_self ..

theorem Hub.record_asking_of_ne {b : Axis} (hb : b ≠ a) : (h.asking a d t c hold).record b = h.record b :=
  Hub.record_setRecord_of_ne _ _ hb

theorem Hub.asking_motionAgrees (hm : h.motionAgrees) (ha : (h.record a).state = .claimed) :
    (h.asking a d t c hold).motionAgrees := motionAgrees_motionInvariant.withMotion a d t c hold hm ha

/-- The values of a MOVE stand in a record that is not MOVING, so that what may be paused is the same. -/
theorem Hub.asking_pausable (hm : h.motionAgrees) (ha : (h.record a).state = .claimed) :
    (h.asking a d t c hold).pausable = h.pausable := by
  refine congrArg List.reverse (List.filter_congr fun b hb => ?_)
  have other : b ≠ a := fun e => by simpa [e, ha] using (hm.granted_iff b).mp hb
  rw [Hub.record_asking_of_ne other]
  rfl

theorem Hub.asking_claimed (ha : (h.record a).state = .claimed) : ((h.asking a d t c hold).record a).state = .claimed := by
  rw [Hub.record_asking_self]; exact ha

/-- The record of an axis that has been granted the motion of its MOVE (R66, R72). -/
def Hub.movingRecord (h : Hub) (a : Axis) (d : Direction) (t : Target) (c : MotionClass) (hold : Nat) : AxisRecord :=
  { (h.record a).withMotion d t c hold with state := .moving, lease := hold, flow := h.demand a }

theorem Hub.record_asking_grant (b : Axis) :
    ((h.asking a d t c hold).grant a).record b = if b = a then h.movingRecord a d t c hold else h.record b := by
  rw [Hub.record_grant, Hub.record_asking_self]
  split
  · rfl
  · rename_i hb; exact Hub.record_asking_of_ne hb

theorem Hub.asking_grant_valves : ((h.asking a d t c hold).grant a).claims.valves = h.claims.valves.set a (.towards d) := by
  rw [Hub.grant_valves, Hub.record_asking_self]; rfl

theorem Hub.asking_grant_arbiter : ((h.asking a d t c hold).grant a).arbiter =
    ⟨h.demand a + h.arbiter.inUse, h.arbiter.grantOrder ++ [a], h.arbiter.queue⟩ := by
  rw [Hub.grant_arbiter, Nat.add_comm]; rfl

theorem Hub.record_asking_preempted (hm : h.motionAgrees) (ha : (h.record a).state = .claimed) :
    ((h.asking a d t c hold).preempted a).record a = h.movingRecord a d t c hold := by
  rw [Hub.record_preempted_self (Hub.asking_motionAgrees hm ha) (Hub.asking_claimed ha), Hub.record_asking_self]
  rfl

theorem Hub.asking_preempted_valves (hm : h.motionAgrees) (ha : (h.record a).state = .claimed) :
    ((h.asking a d t c hold).preempted a).claims.valves.get a = .towards d := by
  rw [Hub.preempted_valves_self (Hub.asking_motionAgrees hm ha) (Hub.asking_claimed ha), Hub.record_asking_self]
  rfl

/-- An accepted motion queued, with the values of its MOVE (R66, R86). -/
theorem Hub.asking_queueMotion :
    (h.asking a d t c hold).queueMotion a c = (h.enqueue a c.waitClass).setRecord a
      { (h.record a).withMotion d t c hold with state := .waiting, lease := h.claimLease } := by
  rw [Hub.queueMotion, Hub.asking, Hub.enqueue_setRecord, Hub.setRecord_setRecord, Hub.record_setRecord_self]
  rfl

end

section
variable {s : State} {r : Role} {a : Axis} {d : Direction} {v : Half} {hold : Byte}

/-- An URGENT MOVE that goes after pauses: its reply stands on the part pre-empted and served, and the record and the outputs of its
axis are those the grant gave it (R66, R88). -/
theorem Says.urgentMove_preempts (hm : s.hub.motionAgrees)
    (passes : s.hub.MovePasses r a d (targetOf v) hold.toNat .urgent) (hu : ∀ e ∈ s.hub.arbiter.queue, e.cls ≠ .urgent)
    (hn : s.hub.params.flowBudget < s.hub.demand a + s.hub.arbiter.inUse)
    (hl : s.hub.demand a + s.hub.arbiter.inUse ≤ s.hub.params.flowBudget + (s.hub.pausable.map s.hub.demand).sum) :
    let k := (s.hub.asking a d (targetOf v) .urgent hold.toNat).preempted a
    let y := s.hub.movingRecord a d (targetOf v) .urgent hold.toNat
    k.motionAgrees ∧ k.service.record a = y ∧ k.service.claims.valves.get a = .towards d ∧
      exec (.move r ⟨axisCode a, BitVec.ofNat 8 d.code, v, hold, 1#8⟩) s = replied s 0x15#8 k.service .ok y.moveData := by
  intro k y
  let m := s.hub.asking a d (targetOf v) .urgent hold.toNat
  have room : m.demand a + m.arbiter.inUse ≤ m.params.flowBudget + (m.pausable.map m.demand).sum := by
    rw [Hub.asking_pausable hm passes.claimed]; exact hl
  have agrees : k.motionAgrees :=
    Hub.preempt_motionAgrees a (Hub.asking_motionAgrees hm passes.claimed) (Hub.asking_claimed passes.claimed) room
  have record : k.record a = y := Hub.record_asking_preempted hm passes.claimed
  have moving : (k.record a).state = .moving := by rw [record]; rfl
  obtain ⟨stays, valves⟩ := Hub.preempted_service_of_standing agrees (b := a) (fun e => nomatch moving.symm.trans e)
    (fun e => nomatch moving.symm.trans e)
  have item := moveItem_of_passes passes
  rw [Hub.askFlow_urgent_preempts (h := m) hu hn room] at item
  exact ⟨agrees, stays.trans record, valves.trans (Hub.asking_preempted_valves hm passes.claimed),
    item_of_moveAnswer (stays.trans record) item⟩

end

theorem urgentMoveAsksForFlow_holds : Says.urgentMoveAsksForFlow := by
  intro s r a d v hold ⟨hm, _⟩ hrun hs hh hp hf ht ho hperm hg item urgent q need freeable w y
  have passes : s.hub.MovePasses r a d (targetOf v) hold.toNat .urgent := ⟨hrun, hs, hh, hp, hf, ht, ho, hperm, hg⟩
  let m := s.hub.asking a d (targetOf v) .urgent hold.toNat
  have room : (s.hub.pausable.map s.hub.demand).sum = freeable := s.hub.pausable_sum
  have answer := moveItem_of_passes passes
  refine ⟨fun hn => ?_, fun hu hl => ?_⟩
  · have large (e : s.hub.params.flowBudget + freeable < need) :
        m.params.flowBudget + (m.pausable.map m.demand).sum < m.demand a + m.arbiter.inUse := by
      rw [Hub.asking_pausable hm hs]; exact room.symm ▸ e
    rw [Hub.askFlow_urgent_queued (h := m) (hn.imp_right large), Hub.asking_queueMotion] at answer
    exact item_of_moveAnswer_more (Hub.record_setRecord_self ..) answer
  · by_cases hfit : need ≤ s.hub.params.flowBudget
    · have arbiter : (m.grant a).arbiter = ⟨need, s.hub.arbiter.grantOrder ++ [a], q⟩ := Hub.asking_grant_arbiter
      have record : (m.grant a).record a = y := (Hub.record_asking_grant a).trans (if_pos rfl)
      have others {b : Axis} (hb : b ≠ a) : (m.grant a).record b = s.hub.record b :=
        (Hub.record_asking_grant b).trans (if_neg hb)
      have valves : (m.grant a).claims.valves.get a = .towards d := by rw [Hub.asking_grant_valves, PerAxis.get_set_self]
      have granted : a ∈ (m.grant a).arbiter.grantOrder := by simp [arbiter]
      rw [Hub.askFlow_urgent_granted (h := m) hu hfit] at answer
      exact ⟨_, item_of_moveAnswer record answer, record, valves, granted, rfl,
        settingsKept_of_settings s _ (m.grant_settings a) (m.grant_enable a), fun _ => ⟨arbiter, fun _ hb => others hb⟩,
        fun _ hb _ _ _ => others hb⟩
    · obtain ⟨agrees, record, valves, replies⟩ := urgentMove_preempts hm passes hu (Nat.not_le.mp hfit) (room.symm ▸ hl)
      have granted : a ∈ (m.preempted a).service.arbiter.grantOrder :=
        ((motionAgrees_motionInvariant.service agrees).granted_iff a).mpr (by rw [record]; rfl)
      refine ⟨_, replies, record, valves, granted, rfl, settingsKept_of_settings s _ ?_ fun q => ?_, fun e => absurd e hfit,
        fun b hb hw hpa hstand => ?_⟩
      · exact (Hub.service_settings _).trans Hub.preempted_settings
      · exact (Hub.service_enable _ q).trans (Hub.preempted_enable q)
      · have asked : m.record b = s.hub.record b := Hub.record_asking_of_ne hb
        have spared : b ∉ m.pausedFor a :=
          Hub.not_mem_pausedFor (Hub.asking_motionAgrees hm hs) (by rw [asked]; exact hstand)
        have stays : (m.preempted a).record b = s.hub.record b := by
          rw [Hub.record_preempted_of_ne hb, if_neg spared, asked]
        exact (Hub.preempted_service_of_standing agrees (by rwa [stays]) (by rwa [stays])).1.trans stays

theorem urgentMovePausesOthers_holds : Says.urgentMovePausesOthers := by
  intro s r a d v hold ⟨hm, _⟩ hrun hs hh hp hf ht ho hperm hg q demand budget need pausable freed hu hn hl y
  obtain ⟨-, -, -, replies⟩ := urgentMove_preempts hm ⟨hrun, hs, hh, hp, hf, ht, ho, hperm, hg⟩ hu hn hl
  let m := s.hub.asking a d (targetOf v) .urgent hold.toNat
  have agrees : m.motionAgrees := Hub.asking_motionAgrees hm hs
  have claimed : (m.record a).state = .claimed := Hub.asking_claimed hs
  have others {b : Axis} (hb : b ≠ a) : m.record b = s.hub.record b := Hub.record_asking_of_ne hb
  have candidates : m.pausable = pausable := Hub.asking_pausable hm hs
  obtain ⟨n, taken, least⟩ := m.victims_eq_take (m.demand a) m.pausable 0
  have enough := Hub.victims_suffice (h := m) (m.demand a) m.pausable 0 (by rw [candidates, Nat.add_zero]; exact hl)
  have paused : m.pausedFor a = pausable.take n := taken.trans (by rw [candidates])
  rw [taken, candidates, Nat.add_zero] at enough
  rw [candidates] at least
  have told : reported m (m.preempted a) a d := by
    have := Hub.preempted_reported agrees claimed
    rwa [Hub.record_asking_self] at this
  refine ⟨n, m.preempted a, enough, least, replies, Hub.record_asking_preempted hm hs, Hub.asking_preempted_valves hm hs,
    fun b hb => ?_, fun b hb spared => ?_, ?_, reported_congr rfl rfl told, Hub.preempted_sampler,
    settingsKept_of_settings s _ Hub.preempted_settings Hub.preempted_enable⟩
  · rw [← paused] at hb
    have hba : b ≠ a := fun e => Hub.not_mem_pausedFor_self agrees claimed (e ▸ hb)
    have notified {p : Role} (hr : p ∈ (s.hub.record b).holder.toList ++ [.ct]) : posted (m.preempted a) (.axis b) p :=
      Hub.posted_preempted hb (by rwa [others hba])
    refine ⟨?_, ?_, notified (by simp), fun p hp => notified (by simp [hp])⟩
    · rw [Hub.record_preempted_of_ne hba, if_pos hb, others hba]; rfl
    · rw [Hub.preempted_valves_of_ne hba, if_pos hb]
  · rw [← paused] at spared
    rw [Hub.record_preempted_of_ne hb, if_neg spared, others hb, Hub.preempted_valves_of_ne hb, if_neg spared]
    exact ⟨rfl, rfl⟩
  · rw [Hub.preempted_arbiter agrees, paused]; rfl

/-- Settles O21: an URGENT MOVE asks for flow, and what it pauses is the shortest run of the latest grants that makes room. -/
theorem urgentMoveAsksForFlow : Obligations.UrgentMoveAsksForFlow :=
  ⟨urgentMoveAsksForFlow_holds, urgentMovePausesOthers_holds⟩

end Sys2Proof.Machine

/-! ## Net and film layer counting

What a pulse, a revolution and a film-break edge make of the part is said once for each, by the branches of the event. What every
command keeps of the bale records is gone through in `BaleInvariant`, and their counts are one such property. -/

namespace Sys2Proof.Machine

open Says

/-! ### Edges of the net feed -/

/-- Settles O38: the ten cells of the table, by the level of the edge and the watch state it meets. -/
theorem netFeedEdges : Obligations.NetFeedEdges := by
  intro s active c
  have taken : exec (.netFeedEdge active) s = took s (s.hub.netFeedEdge active) := rfl
  rw [taken, Hub.netFeedEdge]
  unfold LayerCounter.netFeedEdge
  dsimp only [c]
  cases active with
  | true => cases s.hub.counter.watch <;> rfl
  | false => cases s.hub.counter.watch <;> rfl

/-! ### Net pulses -/

/-- A pulse outside BINDING, or with the feed inactive, is not counted (R125). -/
theorem Hub.netPulse_of_uncounted (h : Hub)
    (hn : h.tracker.stageAt .chamber ≠ some .binding ∨ h.inputs.netFeed = false) : h.netPulse = h := by
  unfold Hub.netPulse
  split
  · rename_i b hb
    split
    · rename_i hg _ hf
      have binding : h.tracker.stageAt .chamber = some .binding := by simp [Tracker.stageAt, Tracker.at, hb, hg]
      rcases hn with hn | hn
      · exact absurd binding hn
      · exact nomatch hf.symm.trans hn
    · rfl
  · rfl

/-- The record with one pulse more in its net part (R125). -/
def Bale.pulsed (b : Bale) (n : NetPart) : Bale := { b with net := some { n with pulses := n.pulses + 1 } }

/-- A pulse with the chamber bale BINDING and the feed active is counted and compared with the target (R125, R126). -/
theorem Hub.netPulse_of_binding (h : Hub) {b : Bale} {n : NetPart} (hb : h.tracker.chamber = some b)
    (hg : b.stage = .binding) (hn : b.net = some n) (hf : h.inputs.netFeed = true) :
    h.netPulse =
      let k := { h with tracker := { h.tracker with chamber := some (b.pulsed n) } }
      if n.pulses + 1 = n.target then k.netTargetReached (b.pulsed n) else k := by
  simp only [Hub.netPulse, hb, hg, hn, hf, Bale.pulsed]

theorem Hub.netTargetReached_tracker (h : Hub) (b : Bale) :
    (h.netTargetReached b).tracker = { h.tracker with
      chamber := some { b with stage := .bound }, feedHold := (h.netTargetReached b).tracker.feedHold } := by
  simp only [Hub.netTargetReached, Hub.evalFeedHold_tracker, Hub.postTo_tracker, Hub.advance_tracker, Tracker.put]

theorem Hub.netTargetReached_counter (h : Hub) (b : Bale) :
    (h.netTargetReached b).counter = { h.counter with watch := .off, startTimer := none, gapTimer := none } := by
  simp [Hub.netTargetReached]

theorem Hub.netTargetReached_params (h : Hub) (b : Bale) : (h.netTargetReached b).params = h.params := by
  simp [Hub.netTargetReached]

/-- What is pending after the chamber bale has advanced and NET_DONE is posted stays pending (R117, R126). -/
theorem Says.posted_netTargetReached {h : Hub} {b : Bale} {n : Notice} {r : Role}
    (hp : posted ((h.advance .chamber b .bound).postTo .netDone [.ch, .ct]) n r) : posted (h.netTargetReached b) n r :=
  posted_evalFeedHold _ n r hp

theorem netPulsesAreCounted_holds : netPulsesAreCounted := by
  intro s
  refine ⟨fun hn => congrArg (took s) (s.hub.netPulse_of_uncounted hn), fun b n hb hg hn hf ht => ?_⟩
  exact congrArg (took s) ((s.hub.netPulse_of_binding hb hg hn hf).trans (if_neg ht))

theorem netTargetIsReached_holds : netTargetIsReached := by
  intro s b n hb hg hn hf ht
  let k : Hub := { s.hub with tracker := { s.hub.tracker with chamber := some (b.pulsed n) } }
  have reached : s.hub.netPulse = k.netTargetReached (b.pulsed n) :=
    (s.hub.netPulse_of_binding hb hg hn hf).trans (if_pos ht)
  have pulsed : b.pulsed n = { b with net := some ⟨n.target, n.target⟩ } := by rw [Bale.pulsed, ht]
  have motion := k.netTargetReached_motionPart (b.pulsed n)
  have done {r : Role} (hr : r ∈ [Role.ch, .ct]) : posted (k.netTargetReached (b.pulsed n)) .netDone r :=
    posted_netTargetReached (posted_of_mem _ _ hr)
  refine ⟨_, congrArg (took s) reached, ?_, k.netTargetReached_counter _, fun r => ?_, done (by simp), done (by simp),
    congrArg MotionPart.claims motion, congrArg MotionPart.arbiter motion, ?_⟩
  · dsimp only
    rw [Hub.netTargetReached_tracker, pulsed]
  · exact posted_netTargetReached (Hub.keepsPosted_postTo _ _ _ r (posted_postAll _ _ r))
  · dsimp only
    rw [Hub.netTargetReached_tracker]

/-- Settles O37: a pulse not counted, counted, and reaching the target. -/
theorem netPulsesAreTaken : Obligations.NetPulsesAreTaken := ⟨netPulsesAreCounted_holds, netTargetIsReached_holds⟩

/-! ### Revolutions of the ring -/

/-- A revolution adds nothing to a bale that is not WRAPPING (R133). -/
theorem Hub.revolution_of_uncounted (h : Hub) (hn : h.tracker.stageAt .table ≠ some .wrapping) : h.revolution = h := by
  unfold Hub.revolution
  split
  · rename_i b hb
    split
    · rename_i hg _
      exact absurd (by simp [Tracker.stageAt, Tracker.at, hb, hg]) hn
    · rfl
  · rfl

/-- The record with more layers in its film part (R133). -/
def Bale.wound (b : Bale) (f : FilmPart) (n : Nat) : Bale := { b with film := some { f with layers := f.layers + n } }

/-- A revolution raises the layers of a WRAPPING bale by the READY dispensers and compares them with the target (R133, R134). -/
theorem Hub.revolution_of_wrapping (h : Hub) {b : Bale} {f : FilmPart} (hb : h.tracker.table = some b)
    (hg : b.stage = .wrapping) (hf : b.film = some f) :
    h.revolution =
      let x := b.wound f h.counter.readyCount
      let k := { h with tracker := { h.tracker with table := some x } }
      if f.target ≤ f.layers + h.counter.readyCount then k.filmTargetReached x else k := by
  simp only [Hub.revolution, hb, hg, hf, Bale.wound]

/-- The conversion to park at the film target acts on the axis records alone (R69, R134). -/
theorem Hub.filmTargetReached_frame (h : Hub) (b : Bale) :
    { h.filmTargetReached b with claims := h.claims } = (h.advance .table b .wrapped).postTo .filmDone [.wr, .ct] := by
  obtain ⟨frame, -⟩ := ((h.advance .table b .wrapped).postTo .filmDone [.wr, .ct]).convertToPark_frame
  simpa [Hub.filmTargetReached] using frame

theorem Hub.filmTargetReached_tracker (h : Hub) (b : Bale) :
    (h.filmTargetReached b).tracker = { h.tracker with table := some { b with stage := .wrapped } } := by
  have e := congrArg Hub.tracker (h.filmTargetReached_frame b)
  exact e.trans (by simp [Tracker.put])

theorem Hub.filmTargetReached_arbiter (h : Hub) (b : Bale) : (h.filmTargetReached b).arbiter = h.arbiter := by
  have e := congrArg Hub.arbiter (h.filmTargetReached_frame b)
  exact e.trans (by simp)

theorem Hub.filmTargetReached_counter (h : Hub) (b : Bale) : (h.filmTargetReached b).counter = h.counter := by
  have e := congrArg Hub.counter (h.filmTargetReached_frame b)
  exact e.trans (by simp)

theorem Hub.filmTargetReached_params (h : Hub) (b : Bale) : (h.filmTargetReached b).params = h.params := by
  have e := congrArg Hub.params (h.filmTargetReached_frame b)
  exact e.trans (by simp)

theorem Says.posted_filmTargetReached {h : Hub} {b : Bale} {n : Notice} {r : Role}
    (hp : posted ((h.advance .table b .wrapped).postTo .filmDone [.wr, .ct]) n r) : posted (h.filmTargetReached b) n r := by
  rw [← Hub.filmTargetReached_frame] at hp
  exact hp

theorem Hub.record_filmTargetReached (h : Hub) (b : Bale) (a : Axis) :
    (h.filmTargetReached b).record a =
      if a = .ring ∧ inFlight (h.record .ring) ∧ (h.record .ring).target = .run then
        { h.record .ring with target := .to h.params.ringPark }
      else h.record a := by
  have advanced (c : Axis) : (h.advance .table b .wrapped).record c = h.record c := by simp [Hub.record]
  simp only [Hub.filmTargetReached, Hub.record_convertToPark, Hub.record_postTo, advanced, Hub.postTo_params,
    Hub.advance_params, AxisState.inFlight_iff]

/-- Settles O40: no WRAPPING bale, layers below the film target, and the target reached. -/
theorem revolutionsCountLayers : Obligations.RevolutionsCountLayers := by
  intro h
  refine ⟨h.revolution_of_uncounted, fun b f hb hg hf => ⟨fun hlt => ?_, fun hle => ?_⟩⟩
  · exact (h.revolution_of_wrapping hb hg hf).trans (if_neg (Nat.not_le.mpr hlt))
  · let x := b.wound f h.counter.readyCount
    let k : Hub := { h with tracker := { h.tracker with table := some x } }
    have reached : h.revolution = k.filmTargetReached x := (h.revolution_of_wrapping hb hg hf).trans (if_pos hle)
    have done {r : Role} (hr : r ∈ [Role.wr, .ct]) : posted (k.filmTargetReached x) .filmDone r :=
      posted_filmTargetReached (posted_of_mem _ _ hr)
    rw [reached]
    refine ⟨k.filmTargetReached_tracker x, ?_, fun a ha => ?_, fun r => ?_, done (by simp), done (by simp),
      k.filmTargetReached_arbiter x, k.filmTargetReached_counter x⟩
    · rw [Hub.record_filmTargetReached]
      simp only [true_and]
      rfl
    · rw [Hub.record_filmTargetReached, if_neg fun e => ha e.1]
      rfl
    · exact posted_filmTargetReached (Hub.keepsPosted_postTo _ _ _ r (posted_postAll _ _ r))

end Sys2Proof.Machine

namespace Sys2Proof.Machine

open Says

/-! ### The dispensers -/

theorem LayerCounter.readyCount_le (c : LayerCounter) : c.readyCount ≤ 2 := by
  unfold LayerCounter.readyCount
  split <;> split <;> decide

/-- A READY dispenser that breaks is one READY dispenser less (R133, R135). -/
theorem LayerCounter.readyCount_of_broken (c : LayerCounter) {d : Dispenser} (hd : c.dispenser d = .ready) :
    c.readyCount = (c.setDispenser d .broken).readyCount + 1 := by
  obtain ⟨watch, start, gap, x, y⟩ := c
  cases d with
  | a => obtain rfl : x = .ready := hd; cases y <;> rfl
  | b => obtain rfl : y = .ready := hd; cases x <;> rfl

/-! ### The capture of a break -/

/-- A capture touches the table bale's record alone (R136). -/
theorem Hub.captureBreak_frame (h : Hub) (d : Dispenser) :
    h.captureBreak d = { h with tracker := { h.tracker with table := (h.captureBreak d).tracker.table } } := by
  unfold Hub.captureBreak
  split
  · split <;> rfl
  · rfl

/-- Nothing is captured without a WRAPPING bale (R136). -/
theorem Hub.captureBreak_of_uncaptured (h : Hub) (d : Dispenser) (hn : h.tracker.stageAt .table ≠ some .wrapping) :
    h.captureBreak d = h := by
  unfold Hub.captureBreak
  split
  · rename_i b hb
    split
    · rename_i hg _
      exact absurd (by simp [Tracker.stageAt, Tracker.at, hb, hg]) hn
    · rfl
  · rfl

/-- The record of a bale after a break: appended to a list of fewer than 4, or BREAKS_OVER (R136). -/
def Bale.broken (b : Bale) (f : FilmPart) (x : FilmBreak) : Bale :=
  if f.breaks.length < 4 then { b with film := some { f with breaks := f.breaks ++ [x] } }
  else { b with flags := { b.flags with breaksOver := true } }

theorem Bale.broken_stage (b : Bale) (f : FilmPart) (x : FilmBreak) : (b.broken f x).stage = b.stage := by
  unfold Bale.broken; split <;> rfl

theorem Hub.captureBreak_of_wrapping (h : Hub) (d : Dispenser) {b : Bale} {f : FilmPart} (hb : h.tracker.table = some b)
    (hg : b.stage = .wrapping) (hf : b.film = some f) :
    h.captureBreak d = { h with tracker := { h.tracker with
      table := some (b.broken f ⟨d, f.layers, h.sampler.ringPosition⟩) } } := by
  simp only [Hub.captureBreak, hb, hg, hf, Bale.broken, Config.breakCapacity]

/-! ### The part at the edge, before any stop of the ring -/

/-- The level recorded, the dispenser BROKEN, FILM_BREAK posted and the break captured (R135, R136). -/
def Hub.brokenAt (h : Hub) (d : Dispenser) : Hub :=
  ({ h.setBreakInput d true with counter := h.counter.setDispenser d .broken }.postTo .filmBreak [.wr, .ct]).captureBreak d

theorem Hub.setBreakInput_counter (h : Hub) (d : Dispenser) (level : Bool) :
    (h.setBreakInput d level).counter = h.counter := by cases d <;> rfl

theorem Hub.setBreakInput_tracker (h : Hub) (d : Dispenser) (level : Bool) :
    (h.setBreakInput d level).tracker = h.tracker := by cases d <;> rfl

theorem Hub.setBreakInput_params (h : Hub) (d : Dispenser) (level : Bool) :
    (h.setBreakInput d level).params = h.params := by cases d <;> rfl

/-- What an edge that breaks a dispenser makes of the part before any stop: its inputs, its counter, its notices and the record
of the table bale (R135, R136). -/
theorem Hub.brokenAt_eq (h : Hub) (d : Dispenser) :
    h.brokenAt d = { (h.postTo .filmBreak [.wr, .ct]).setBreakInput d true with
      counter := h.counter.setDispenser d .broken, tracker := { h.tracker with table := (h.brokenAt d).tracker.table } } := by
  have frame := Hub.captureBreak_frame
    ({ h.setBreakInput d true with counter := h.counter.setDispenser d .broken }.postTo .filmBreak [.wr, .ct]) d
  refine frame.trans ?_
  cases d <;> rfl

theorem Hub.brokenAt_counter (h : Hub) (d : Dispenser) : (h.brokenAt d).counter = h.counter.setDispenser d .broken := by
  rw [Hub.brokenAt_eq]

theorem Hub.brokenAt_tracker (h : Hub) (d : Dispenser) :
    (h.brokenAt d).tracker = { h.tracker with table := (h.brokenAt d).tracker.table } := by
  have e := congrArg Hub.tracker (h.brokenAt_eq d)
  exact e

theorem Hub.brokenAt_motionPart (h : Hub) (d : Dispenser) : (h.brokenAt d).motionPart = h.motionPart := by
  rw [Hub.brokenAt, Hub.captureBreak_motionPart, Hub.postTo_motionPart]
  exact h.setBreakInput_motionPart d true

theorem Hub.brokenAt_params (h : Hub) (d : Dispenser) : (h.brokenAt d).params = h.params := by
  rw [Hub.brokenAt_eq]
  exact (Hub.setBreakInput_params ..).trans (Hub.postTo_params ..)

theorem Hub.brokenAt_record (h : Hub) (d : Dispenser) (a : Axis) : (h.brokenAt d).record a = h.record a := by
  have claims : (h.brokenAt d).claims = h.claims := congrArg MotionPart.claims (h.brokenAt_motionPart d)
  rw [Hub.record, claims]; rfl

theorem Hub.brokenAt_tracker_of_uncaptured (h : Hub) (d : Dispenser) (hn : h.tracker.stageAt .table ≠ some .wrapping) :
    (h.brokenAt d).tracker = h.tracker := by
  have same : ({ h.setBreakInput d true with counter := h.counter.setDispenser d .broken }.postTo .filmBreak
      [.wr, .ct]).tracker = h.tracker := (Hub.postTo_tracker ..).trans (h.setBreakInput_tracker d true)
  rw [Hub.brokenAt, Hub.captureBreak_of_uncaptured _ _ (by rwa [same]), same]

theorem Hub.brokenAt_table_of_wrapping (h : Hub) (d : Dispenser) {b : Bale} {f : FilmPart} (hb : h.tracker.table = some b)
    (hg : b.stage = .wrapping) (hf : b.film = some f) :
    (h.brokenAt d).tracker.table = some (b.broken f ⟨d, f.layers, h.sampler.ringPosition⟩) := by
  have sampler : (h.setBreakInput d true).sampler = h.sampler := by cases d <;> rfl
  rw [Hub.brokenAt, Hub.captureBreak_of_wrapping (b := b) (f := f) _ d (by rwa [Hub.postTo_tracker, Hub.setBreakInput_tracker])
    hg hf, Hub.postTo_sampler, sampler]

theorem Hub.posted_brokenAt (h : Hub) (d : Dispenser) {r : Role} (hr : r ∈ [Role.wr, .ct]) :
    posted (h.brokenAt d) .filmBreak r := by
  rw [Hub.brokenAt, Hub.captureBreak_frame]
  exact posted_of_mem _ _ hr

/-! ### A film-break edge -/

theorem Hub.filmBreakEdge_inactive (h : Hub) (d : Dispenser) : h.filmBreakEdge d false = h.setBreakInput d false := rfl

/-- A break of a BROKEN dispenser is recorded as a level and ignored (R135). -/
theorem Hub.filmBreakEdge_of_broken (h : Hub) {d : Dispenser} (hd : h.counter.dispenser d = .broken) :
    h.filmBreakEdge d true = h.setBreakInput d true := by
  rw [Hub.filmBreakEdge]
  simp [Hub.setBreakInput_counter, hd]

/-- A break of a READY dispenser, and film out when no other is READY (R135, R137). -/
theorem Hub.filmBreakEdge_of_ready (h : Hub) {d : Dispenser} (hd : h.counter.dispenser d = .ready) :
    h.filmBreakEdge d true = if h.counter.readyCount = 1 then (h.brokenAt d).stopRingFilmOut else h.brokenAt d := by
  have broke : h.filmBreakEdge d true = (h.setBreakInput d true).breakDispenser d := by
    rw [Hub.filmBreakEdge]
    simp [Hub.setBreakInput_counter, hd]
  have part : ({ h.setBreakInput d true with
      counter := (h.setBreakInput d true).counter.setDispenser d .broken }.postTo .filmBreak [.wr, .ct]).captureBreak d =
      h.brokenAt d := by rw [Hub.setBreakInput_counter]; rfl
  rw [broke, Hub.breakDispenser, part, Hub.brokenAt_counter, h.counter.readyCount_of_broken hd]
  simp only [Nat.add_eq_right]

/-- The edge that breaks the last READY dispenser is the part at the edge with the ring stopped (R137). -/
theorem Hub.filmBreakEdge_of_last (h : Hub) {d : Dispenser} (hd : h.counter.dispenser d = .ready)
    (one : h.counter.readyCount = 1) : h.filmBreakEdge d true = (h.brokenAt d).stopRingFilmOut :=
  (h.filmBreakEdge_of_ready hd).trans (if_pos one)

/-! ### Film out -/

theorem Hub.stopRingFilmOut_eq (h : Hub) : h.stopRingFilmOut =
    if (h.record .ring).state = .moving ∧ (h.record .ring).target = .run then (h.endMotion .ring .filmOut).service else h := rfl

/-- What an end of the ring's motion and the service keep, film out keeps. -/
theorem Hub.stopRingFilmOut_induction (P : Hub → Prop) (stop : ∀ h, P h → P (Hub.endMotion h .ring .filmOut).service) (h : Hub)
    (hp : P h) : P h.stopRingFilmOut := by
  rw [Hub.stopRingFilmOut_eq]
  split
  · exact stop h hp
  · exact hp

/-- A WRAPPING table bale is not touched by a grant, which reports a WRAPPED one alone (R107). -/
theorem Hub.reportGrant_table_of_wrapping (h : Hub) (a : Axis) (d : Direction) {b : Bale} (hb : h.tracker.table = some b)
    (hg : b.stage = .wrapping) : (h.reportGrant a d).tracker.table = some b := by
  unfold Hub.reportGrant
  split
  · split
    · split
      · rw [Hub.evalFeedHold_tracker, Hub.advance_tracker]; exact hb
      · exact hb
    · exact hb
  · simp [hb, hg]
  · exact hb

theorem Hub.service_table_of_wrapping (h : Hub) {b : Bale} (hb : h.tracker.table = some b) (hg : b.stage = .wrapping) :
    h.service.tracker.table = some b :=
  Hub.service_induction (fun k => k.tracker.table = some b) (fun _ _ _ _ hk _ _ => by simpa using hk)
    (fun k e _ hk _ _ _ => by
      rw [Hub.grantFromQueue, Hub.postAxis, Hub.postTo_tracker, Hub.grant]
      exact Hub.reportGrant_table_of_wrapping _ _ _ hk hg) h hb

/-- A part whose motion part is that of a sound one is sound in its claim table, its arbiter and its valves. -/
theorem Says.sound_of_motionPart {s : State} {k : Hub} (hs : sound s) (e : k.motionPart = s.hub.motionPart) :
    k.motionAgrees ∧ k.valvesAgree :=
  ⟨motionAgrees_motionInvariant.same hs.1 e, valvesAgree_motionInvariant.same hs.2 e⟩

/-- Film out of a ring MOVING in the RUN kind: one end of a motion, and the service (R30, R137). -/
theorem Says.stopRingFilmOut_of_run {s : State} {k : Hub} (hs : sound s) (e : k.motionPart = s.hub.motionPart)
    (lease : k.claimLease = fullLease s) (hm : (s.hub.record .ring).state = .moving)
    (ht : (s.hub.record .ring).target = .run) :
    k.stopRingFilmOut = (endedHub k .ring (kept s (s.hub.record .ring) .filmOut)).service := by
  have claims : k.claims = s.hub.claims := congrArg MotionPart.claims e
  have record : k.record .ring = s.hub.record .ring := by rw [Hub.record, claims]; rfl
  obtain ⟨agrees, valves⟩ := sound_of_motionPart hs e
  rw [Hub.stopRingFilmOut_eq, record, if_pos ⟨hm, ht⟩, k.endMotion_eq .ring .filmOut agrees valves, record, lease]
  rfl

theorem Hub.stopRingFilmOut_of_other {h : Hub}
    (hn : (h.record .ring).state ≠ .moving ∨ (h.record .ring).target ≠ .run) : h.stopRingFilmOut = h :=
  if_neg fun e => hn.elim (· e.1) (· e.2)

/-- What film out and the service after it keep of the part at the edge, an edge that breaks a READY dispenser leaves. -/
theorem Hub.filmBreakEdge_induction (P : Hub → Prop) (stop : ∀ h, P h → P (Hub.endMotion h .ring .filmOut).service) (h : Hub)
    {d : Dispenser} (hd : h.counter.dispenser d = .ready) (hp : P (h.brokenAt d)) : P (h.filmBreakEdge d true) := by
  rw [h.filmBreakEdge_of_ready hd]
  split
  · exact Hub.stopRingFilmOut_induction P stop _ hp
  · exact hp

theorem filmBreakIsTaken_holds : filmBreakIsTaken := by
  intro s d
  refine ⟨congrArg (took s) (s.hub.filmBreakEdge_inactive d),
    fun hd => congrArg (took s) (s.hub.filmBreakEdge_of_broken hd), fun hd => ⟨_, rfl, ?_, ?_, ?_, ?_, ?_, ?_⟩⟩
  · exact Hub.filmBreakEdge_induction (fun k => k.counter = s.hub.counter.setDispenser d .broken)
      (fun k hk => by simpa using hk) s.hub hd (s.hub.brokenAt_counter d)
  · exact Hub.filmBreakEdge_induction (fun k => posted k .filmBreak .wr)
      (fun k hk => ((Hub.keepsPosted_endMotion _ _).trans Hub.keepsPosted_service) _ _ hk) s.hub hd
      (s.hub.posted_brokenAt d (by simp))
  · exact Hub.filmBreakEdge_induction (fun k => posted k .filmBreak .ct)
      (fun k hk => ((Hub.keepsPosted_endMotion _ _).trans Hub.keepsPosted_service) _ _ hk) s.hub hd
      (s.hub.posted_brokenAt d (by simp))
  · intro hn
    exact Hub.filmBreakEdge_induction
      (fun k => k.tracker.table.map (fun b => (b.film, b.flags)) = s.hub.tracker.table.map (fun b => (b.film, b.flags)))
      (fun k hk => by rw [Hub.service_tableParts, Hub.endMotion_tracker]; exact hk) s.hub hd
      (by rw [s.hub.brokenAt_tracker_of_uncaptured d hn])
  · intro two
    have edge : s.hub.filmBreakEdge d true = s.hub.brokenAt d :=
      (s.hub.filmBreakEdge_of_ready hd).trans (if_neg (by omega))
    have motion := s.hub.brokenAt_motionPart d
    dsimp only
    rw [edge]
    exact ⟨congrArg MotionPart.claims motion, congrArg MotionPart.arbiter motion, s.hub.brokenAt_tracker_of_uncaptured d,
      s.hub.brokenAt_eq d⟩
  · intro b f hb hg hf
    exact Hub.filmBreakEdge_induction
      (fun k => k.tracker.table = some (b.broken f ⟨d, f.layers, s.hub.sampler.ringPosition⟩))
      (fun k hk => Hub.service_table_of_wrapping _ (by rwa [Hub.endMotion_tracker]) ((b.broken_stage f _).trans hg)) s.hub hd
      (s.hub.brokenAt_table_of_wrapping d hb hg hf)

theorem filmOutStopsTheRing_holds : filmOutStopsTheRing := by
  intro s d hs one hd
  let k := s.hub.brokenAt d
  have motion : k.motionPart = s.hub.motionPart := s.hub.brokenAt_motionPart d
  have lease : k.claimLease = fullLease s := by rw [Hub.claimLease, s.hub.brokenAt_params]; rfl
  refine ⟨_, congrArg (took s) (s.hub.filmBreakEdge_of_last hd one), fun hm ht => ?_, fun hn => ?_⟩
  · let y := kept s (s.hub.record .ring) .filmOut
    have left (e : WaitEntry) (he : e ∈ (endedHub k .ring y).arbiter.queue) : e.axis ≠ .ring :=
      ((mem_endedHub_queue ..).mp he).2
    obtain ⟨⟨record, valves⟩, -⟩ := Hub.service_of_no_entry _ .ring left
    dsimp only
    rw [stopRingFilmOut_of_run hs motion lease hm ht]
    refine ⟨record.trans ((endedHub_record ..).trans (if_pos rfl)), valves.trans ?_⟩
    rw [endedHub_valves, PerAxis.get_set_self]
  · have stays : k.stopRingFilmOut = k := Hub.stopRingFilmOut_of_other (by rwa [s.hub.brokenAt_record])
    dsimp only
    rw [stays]
    exact ⟨congrArg MotionPart.claims motion, congrArg MotionPart.arbiter motion⟩

theorem serviceFollowsFilmOut_holds : serviceFollowsFilmOut := by
  intro s d hs one hd hm ht
  have motion := s.hub.brokenAt_motionPart d
  have params := s.hub.brokenAt_params d
  have lease : (s.hub.brokenAt d).claimLease = fullLease s := by rw [Hub.claimLease, params]; rfl
  refine ⟨s.hub.brokenAt d, congrArg MotionPart.claims motion, congrArg MotionPart.arbiter motion, ?_, ?_, params, ?_, ?_,
    s.hub.brokenAt_counter d, ?_⟩
  · rw [Hub.brokenAt_eq]; cases d <;> exact Hub.postTo_sampler ..
  · rw [Hub.brokenAt_eq]; cases d <;> exact Hub.postTo_map ..
  · rw [Hub.brokenAt_tracker]
  · rw [Hub.brokenAt_tracker]
  · exact congrArg (took s) ((s.hub.filmBreakEdge_of_last hd one).trans (stopRingFilmOut_of_run hs motion lease hm ht))

/-- Settles O41: the edge and its capture, film out, and the service after it. -/
theorem filmBreaksAreTaken : Obligations.FilmBreaksAreTaken :=
  ⟨filmBreakIsTaken_holds, filmOutStopsTheRing_holds, serviceFollowsFilmOut_holds⟩

end Sys2Proof.Machine

namespace Sys2Proof.Machine

/-! ### The bale records, the parameters and the pre-chamber input as one part

The ends, grants and claims of motions touch this part by a grant reported to the tracker and in no other way. A property of it
that such a report keeps is kept by every command but those named in `writesBales`; the others are gone through here once. -/

/-- The bale tracker, the parameters, and the input level that FEED HOLD stands on. -/
def Hub.balePart (h : Hub) : Tracker × Params × Bool := (h.tracker, h.params, h.inputs.prechamberFull)

theorem Hub.balePart_tracker {h k : Hub} (e : k.balePart = h.balePart) : k.tracker = h.tracker := congrArg Prod.fst e

theorem Hub.balePart_params {h k : Hub} (e : k.balePart = h.balePart) : k.params = h.params :=
  congrArg (fun p => p.2.1) e

theorem Hub.setMode_balePart (h : Hub) (m : Mode) : (h.setMode m).balePart = h.balePart := rfl

/-! #### Items that leave the bale part alone -/

theorem bindRetryItem_balePart (r : Role) (h : Hub) : (bindRetryItem r h).1.balePart = h.balePart := by
  unfold bindRetryItem
  repeat' split
  all_goals rfl

theorem filmResetItem_balePart (r : Role) (code : Byte) (h : Hub) : (filmResetItem r code h).1.balePart = h.balePart := by
  unfold filmResetItem
  repeat' split
  all_goals rfl

theorem zoneSetBoundsItem_balePart (r : Role) (a : Byte) (b : BoundArgs) (h : Hub) :
    (zoneSetBoundsItem r a b h).1.balePart = h.balePart := by
  unfold zoneSetBoundsItem
  repeat' split
  all_goals rfl

theorem zoneSetEntryItem_balePart (r : Role) (a e k : Byte) (f : AllowArgs) (h : Hub) :
    (zoneSetEntryItem r a e k f h).1.balePart = h.balePart := by
  unfold zoneSetEntryItem
  repeat' split
  all_goals rfl

theorem clearStopItem_balePart (r : Role) (h : Hub) : (clearStopItem r h).1.balePart = h.balePart := by
  unfold clearStopItem
  repeat' split
  all_goals rfl

theorem restartItem_balePart (r : Role) (h : Hub) : (restartItem r h).1.balePart = h.balePart := by
  unfold restartItem
  repeat' split
  all_goals rfl

theorem noticeClearItem_balePart (r : Role) (k : KindBits) (h : Hub) : (noticeClearItem r k h).1.balePart = h.balePart := by
  unfold noticeClearItem; split <;> rfl

theorem noticeMaskItem_balePart (r : Role) (k : KindBits) (h : Hub) : (noticeMaskItem r k h).1.balePart = h.balePart := by
  unfold noticeMaskItem; split <;> rfl

/-! #### What a property of the bale part must keep -/

/-- The commands that act on the bale records or the parameters themselves. -/
def writesBales : Instr → Bool
  | .powerOn _ | .ringCount | .ringIndexCount | .filmBreakEdge _ _ | .netPulse | .netStartTimeout | .netGapTimeout
  | .cradleLoadActive | .cradleLoadInactive | .tableLoadActive | .tableLoadInactive | .transitTimeout | .tableLate
  | .prechamberFullEdge _ | .baleStart _ | .bindStart _ | .wrapStart _ | .baleNote _ _ | .baleDeclare _ _ _ | .logDrop _ _
  | .paramSet _ _ _ => true
  | _ => false

/-- A property of the bale part that the report of a grant keeps. -/
structure BaleInvariant (P : Hub → Prop) : Prop where
  same : ∀ {h k : Hub}, P h → k.balePart = h.balePart → P k
  reportGrant : ∀ (h : Hub) (a : Axis) (d : Direction), P h → P (h.reportGrant a d)

section
variable {P : Hub → Prop} (K : BaleInvariant P)
include K

namespace BaleInvariant

theorem postTo {h : Hub} (n : Notice) (l : List Role) (hp : P h) : P (h.postTo n l) := K.same hp (by simp [Hub.balePart])

/-! #### Ends, grants and the service -/

theorem endMotion {h : Hub} (a : Axis) (c : EndCause) (hp : P h) : P (h.endMotion a c) :=
  K.same hp (by simp [Hub.balePart])

theorem endMotions (l : List Axis) (c : EndCause) {h : Hub} (hp : P h) : P (l.foldl (fun h a => h.endMotion a c) h) := by
  induction l generalizing h with
  | nil => exact hp
  | cons a l ih => exact ih (K.endMotion a c hp)

theorem dropClaim {h : Hub} (a : Axis) (c : EndCause) (hp : P h) : P (h.dropClaim a c) :=
  K.same hp (by simp [Hub.balePart])

theorem dropAllClaims {h : Hub} (hp : P h) : P h.dropAllClaims := K.same hp (by simp [Hub.balePart])

theorem grant {h : Hub} (a : Axis) (hp : P h) : P (h.grant a) := K.reportGrant _ _ _ (K.same hp rfl)

theorem grantFromQueue {h : Hub} (a : Axis) (hp : P h) : P (h.grantFromQueue a) :=
  K.postTo _ _ (K.grant a (K.same hp rfl))

theorem service {h : Hub} (hp : P h) : P h.service :=
  Hub.service_induction P (fun _ e _ c hk _ _ => K.same (K.endMotion e.axis c hk) rfl)
    (fun _ e _ hk _ _ _ => K.grantFromQueue e.axis hk) h hp

theorem dropAndServe {h : Hub} (a : Axis) (c : EndCause) (hp : P h) : P (h.dropAndServe a c) := by
  unfold Hub.dropAndServe
  split
  · exact K.service (K.dropClaim _ _ hp)
  · exact K.dropClaim _ _ hp

theorem suspend {h : Hub} (vs : List Axis) (hp : P h) : P (h.suspend vs) := by
  have paused (l : List Axis) (k : Hub) (hk : P k) : P (l.foldl Hub.pause k) := by
    induction l generalizing k with
    | nil => exact hk
    | cons v l ih => exact ih _ (K.same hk (by simp [Hub.balePart]))
  have joined (l : List Axis) (k : Hub) (hk : P k) : P (l.foldl (fun h v => h.enqueue v .resume) k) := by
    induction l generalizing k with
    | nil => exact hk
    | cons v l ih => exact ih _ (K.same hk rfl)
  exact joined _ _ (paused vs h hp)

theorem askFlow {h : Hub} (a : Axis) (c : MotionClass) (hp : P h) : P (h.askFlow a c).1 := by
  have queued : P (h.queueMotion a c) := K.same hp rfl
  have granted : P (h.grant a) := K.grant a hp
  unfold Hub.askFlow
  cases c with
  | normal =>
    dsimp only
    split
    · exact granted
    · exact queued
  | urgent =>
    dsimp only
    split
    · exact queued
    · split
      · exact granted
      · split
        · exact K.service (K.grant a (K.suspend _ hp))
        · exact queued

theorem stopRingFilmOut {h : Hub} (hp : P h) : P h.stopRingFilmOut :=
  Hub.stopRingFilmOut_induction P (fun _ hk => K.service (K.endMotion _ _ hk)) h hp

theorem stopRingUnplanned {h : Hub} (hp : P h) : P h.stopRingUnplanned := by
  unfold Hub.stopRingUnplanned
  split
  · exact K.service (K.endMotion _ _ hp)
  · exact hp

/-! #### Items -/

theorem claimItem {h : Hub} (r : Role) (axis : Byte) (hp : P h) : P (claimItem r axis h).1 := by
  unfold Machine.claimItem
  repeat' split
  case h_2.isFalse.isFalse.isTrue => exact K.same hp rfl
  case h_2.isFalse.isFalse.isFalse.isTrue => exact K.same hp rfl
  all_goals exact hp

theorem releaseItem {h : Hub} (r : Role) (axis : Byte) (hp : P h) : P (releaseItem r axis h).1 := by
  unfold Machine.releaseItem
  repeat' split
  case h_2.isFalse.isFalse => exact K.dropAndServe _ _ hp
  all_goals exact hp

theorem handoverItem {h : Hub} (r : Role) (axis p : Byte) (hp : P h) : P (handoverItem r axis p h).1 := by
  unfold Machine.handoverItem
  repeat' split
  case h_1.isFalse.isFalse.isFalse.isFalse => exact K.postTo _ _ (K.same hp rfl)
  all_goals exact hp

theorem refreshItem {h : Hub} (r : Role) (axis : Byte) (hp : P h) : P (refreshItem r axis h).1 := by
  unfold Machine.refreshItem
  repeat' split
  case h_2.isFalse.isFalse => exact K.same hp rfl
  all_goals exact hp

theorem retarget {h : Hub} (a : Axis) (d : Direction) (t : Target) (hold : Nat) (cls : Option MotionClass) (hp : P h) :
    P (h.retarget a d t hold cls).1 := by
  unfold Hub.retarget
  dsimp only
  split
  · rwa [Hub.valueAnswer_hub]
  · split
    · exact hp
    · split
      · exact K.service (K.endMotion _ _ (K.same hp rfl))
      · split
        · exact hp
        · exact K.same hp rfl

theorem takeUp {h : Hub} (a : Axis) (d : Direction) (t : Target) (c : MotionClass) (hold : Nat) (hp : P h) :
    P (h.takeUp a d t c hold).1 := by
  have asked : P ((h.setRecord a ((h.record a).withMotion d t c hold)).askFlow a c).1 := K.askFlow a c (K.same hp rfl)
  unfold Hub.takeUp
  split
  · exact hp
  · split
    · exact hp
    · split
      · exact hp
      · split <;> (rename_i he; rw [he] at asked; exact asked)

theorem newMotion {h : Hub} (a : Axis) (d : Direction) (t : Target) (hold : Nat) (cls : Option MotionClass) (hp : P h) :
    P (h.newMotion a d t hold cls).1 := by
  unfold Hub.newMotion
  split
  · exact hp
  · split
    · rwa [Hub.valueAnswer_hub]
    · exact hp
    · split
      · exact K.endMotion _ _ (K.same hp rfl)
      · exact K.takeUp _ _ _ _ _ hp

theorem moveItem {h : Hub} (r : Role) (m : MoveArgs) (hp : P h) : P (moveItem r m h).1 := by
  unfold Machine.moveItem
  dsimp only
  repeat' split
  case h_4.isTrue => exact K.retarget _ _ _ _ _ hp
  case h_5 => exact K.newMotion _ _ _ _ _ hp
  all_goals exact hp

theorem stopItem {h : Hub} (r : Role) (axis : Byte) (hp : P h) : P (stopItem r axis h).1 := by
  unfold Machine.stopItem
  dsimp only
  split
  · exact hp
  · split
    · exact hp
    · split
      · exact hp
      · split
        · exact K.service (K.endMotion _ _ hp)
        · exact hp

theorem allStopItem {h : Hub} (r : Role) (hp : P h) : P (allStopItem r h).1 := by
  have ended := K.endMotions h.inFlightAxes .allStop hp
  unfold Machine.allStopItem
  dsimp only
  split
  · exact ended
  · exact K.service ended

theorem modeSetItem {h : Hub} (r : Role) (mode : Byte) (hp : P h) : P (modeSetItem r mode h).1 := by
  have entered : P h.enterRun.1 := by
    unfold Hub.enterRun
    split <;> exact K.same hp rfl
  unfold Machine.modeSetItem
  repeat' split
  case h_2 => exact entered
  case h_3 => exact K.same (K.dropAllClaims hp) (Hub.setMode_balePart _ _)
  all_goals exact hp

/-- Every item but those of `writesBales` keeps the property. -/
theorem item {i : Instr} {code : Byte} {f : Hub → Hub × Answer} {h : Hub} (hi : itemOf i = some (code, f))
    (hw : writesBales i = false) (hp : P h) : P (f h).1 := by
  cases i <;> simp only [itemOf, Option.some.injEq, Prod.mk.injEq, reduceCtorEq] at hi <;> obtain ⟨-, rfl⟩ := hi
  case claim => exact K.claimItem _ _ hp
  case release => exact K.releaseItem _ _ hp
  case handover => exact K.handoverItem _ _ _ hp
  case refresh => exact K.refreshItem _ _ hp
  case move => exact K.moveItem _ _ hp
  case stop => exact K.stopItem _ _ hp
  case allStop => exact K.allStopItem _ hp
  case axisRead => rwa [axisReadItem_hub]
  case flowRead | baleRead | paramGet | status | noticeRead => exact hp
  case bindRetry => exact K.same hp (bindRetryItem_balePart ..)
  case filmReset => exact K.same hp (filmResetItem_balePart ..)
  case logRead => rwa [logReadItem_hub]
  case zoneGet => rwa [zoneGetItem_hub]
  case zoneSetBounds => exact K.same hp (zoneSetBoundsItem_balePart ..)
  case zoneSetEntry => exact K.same hp (zoneSetEntryItem_balePart ..)
  case modeSet => exact K.modeSetItem _ _ hp
  case clearStop => exact K.same hp (clearStopItem_balePart ..)
  case restart => exact K.same hp (restartItem_balePart ..)
  case noticeClear => exact K.same hp (noticeClearItem_balePart ..)
  case noticeMask => exact K.same hp (noticeMaskItem_balePart ..)
  all_goals exact nomatch hw

/-! #### Events -/

theorem stopInputActive {h : Hub} (hp : P h) : P h.stopInputActive := by
  have recorded : P { h with inputs := { h.inputs with stop := true } } := K.same hp rfl
  have stopped (k : Hub) (hk : P k) :
      P ({ k with control := { k.control with mode := .stopped, stopLatch := true } }.postAll .stopLatched) :=
    K.postTo _ _ (K.same hk rfl)
  unfold Hub.stopInputActive
  dsimp only
  split
  · exact stopped _ (K.dropAllClaims recorded)
  · exact stopped _ recorded

theorem sample {h : Hub} (volts : Voltages) (hp : P h) : P (h.sample volts) := by
  have captured : P (h.taken volts) := by
    unfold Hub.taken
    split
    · exact K.postTo _ _ (K.same hp rfl)
    · exact K.same hp rfl
  exact Hub.evaluate_induction P (fun _ a c hk => K.endMotion a c hk) (fun _ hk => K.service hk) _ h captured

theorem leaseExpiry {h : Hub} (a : Axis) (hp : P h) : P (h.leaseExpiry a) := by
  unfold Hub.leaseExpiry
  split
  · exact hp
  · exact K.dropAndServe _ _ hp

theorem waitTimeout {h : Hub} (a : Axis) (hp : P h) : P (h.waitTimeout a) := by
  unfold Hub.waitTimeout
  split
  · exact K.service (K.same (K.endMotion _ _ hp) rfl)
  · exact hp

/-- Every event but those of `writesBales` keeps the property. -/
theorem event {c : Instr} {f : Hub → Hub} {h : Hub} (hc : eventOf c = some f) (hw : writesBales c = false) (hp : P h) :
    P (f h) := by
  cases c <;> simp only [eventOf, Option.some.injEq, reduceCtorEq] at hc <;> subst hc
  case sample => exact K.sample _ hp
  case leaseExpiry => exact K.leaseExpiry _ hp
  case waitTimeout => exact K.waitTimeout _ hp
  case stopInputActive => exact K.stopInputActive hp
  case inclinometerEdge | inclinometerTimeout | netFeedEdge | fieldClockTick | stopInputInactive => exact K.same hp rfl
  all_goals exact nomatch hw

/-! #### Steps -/

/-- Every step keeps the property, when the commands of `writesBales`, a restart and the passing of 10 ms do. -/
theorem step {s t : State} (hp : P s.hub) (ht : step s = .next t)
    (items : ∀ i code f h, itemOf i = some (code, f) → writesBales i = true → P h → P (f h).1)
    (events : ∀ c f h, eventOf c = some f → writesBales c = true → P h → P (f h))
    (restarted : ∀ h, P h → P (Hub.restarted h)) (tick : ∀ h, P h → P (Hub.tick h)) : P t.hub := by
  have every : ItemInvariant P :=
    { sameBlocks := fun hh hk => K.same hh (by have e := congrArg Hub.balePart hk; exact e)
      overrun := fun _ _ hh => K.same hh rfl
      restarted := restarted
      item := fun i code f h hi hh => by
        cases hw : writesBales i with
        | true => exact items i code f h hi hw hh
        | false => exact K.item hi hw hh }
  refine every.step (fun c f h hc hh => ?_) tick hp ht
  cases hw : writesBales c with
  | true => exact events c f h hc hw hh
  | false => exact K.event hc hw hh

end BaleInvariant
end

end Sys2Proof.Machine

namespace Sys2Proof.Machine

/-! ### What holds of every bale record -/

/-- A property of every record of the bale queue and of the log. -/
structure Tracker.Every (Q : Bale → Prop) (t : Tracker) : Prop where
  chamber : ∀ b, t.chamber = some b → Q b
  cradle : ∀ b, t.cradle = some b → Q b
  table : ∀ b, t.table = some b → Q b
  log : ∀ b, b ∈ t.log → Q b

section
variable {Q : Bale → Prop} {h : Hub} {t : Tracker}

theorem Tracker.every_iff : t.Every Q ↔ (∀ p b, t.at p = some b → Q b) ∧ ∀ b, b ∈ t.log → Q b := by
  constructor
  · rintro ⟨chamber, cradle, table, log⟩
    refine ⟨fun p b hb => ?_, log⟩
    cases p
    · exact chamber b hb
    · exact cradle b hb
    · exact table b hb
  · rintro ⟨places, log⟩
    exact ⟨places .chamber, places .cradle, places .table, log⟩

namespace Tracker.Every

theorem put (ht : t.Every Q) (p : Place) {x : Option Bale} (hx : ∀ b, x = some b → Q b) : (t.put p x).Every Q := by
  obtain ⟨places, log⟩ := every_iff.mp ht
  refine every_iff.mpr ⟨fun q b hb => ?_, by rwa [put_log]⟩
  rw [at_put] at hb
  split at hb
  · exact hx b hb
  · exact places q b hb

theorem put_some (ht : t.Every Q) (p : Place) {b : Bale} (hb : Q b) : (t.put p (some b)).Every Q :=
  ht.put p fun _ e => Option.some.inj e ▸ hb

theorem put_none (ht : t.Every Q) (p : Place) : (t.put p none).Every Q := ht.put p fun _ e => nomatch e

/-- The record at a place changed, if there is one. -/
theorem put_map (ht : t.Every Q) (p : Place) {f : Bale → Bale} (hf : ∀ b, Q b → Q (f b)) :
    (t.put p ((t.at p).map f)).Every Q := by
  obtain ⟨places, -⟩ := every_iff.mp ht
  refine ht.put p fun c hc => ?_
  obtain ⟨b, hb, rfl⟩ := Option.map_eq_some_iff.mp hc
  exact hf b (places p b hb)

/-- The timers, the next number and FEED HOLD are no part of a record. -/
theorem of_records {k : Tracker} (ht : t.Every Q) (h1 : k.chamber = t.chamber) (h2 : k.cradle = t.cradle)
    (h3 : k.table = t.table) (h4 : k.log = t.log) : k.Every Q :=
  ⟨h1 ▸ ht.chamber, h2 ▸ ht.cradle, h3 ▸ ht.table, h4 ▸ ht.log⟩

end Tracker.Every
end

/-! ### The counts of one record -/

section
variable {b c : Bale} {f : FilmPart} {n : NetPart}

namespace Bale.countsAgree

/-- The counts of a record stand on its stage, its net part and its film part. -/
theorem of_parts (hb : b.countsAgree) (hs : c.stage = b.stage) (hn : c.net = b.net) (hf : c.film = b.film) :
    c.countsAgree := by
  unfold Bale.countsAgree
  rw [hs, hn, hf]
  exact hb

/-- A record that takes another stage than WRAPPING and BINDING. -/
theorem of_stage (hb : b.countsAgree) (hw : c.stage ≠ .wrapping) (hd : c.stage ≠ .binding) (hn : c.net = b.net)
    (hf : c.film = b.film) : c.countsAgree := by
  obtain ⟨film, net⟩ := hb
  refine ⟨fun f e => ?_, fun n e => ?_⟩
  · obtain ⟨breaks, layers, -⟩ := film f (hf ▸ e)
    exact ⟨breaks, layers, fun e => absurd e hw⟩
  · obtain ⟨pulses, -⟩ := net n (hn ▸ e)
    exact ⟨pulses, fun e => absurd e hd⟩

theorem restaged {g : Stage} (hb : b.countsAgree) (hw : g ≠ .wrapping) (hd : g ≠ .binding) :
    ({ b with stage := g } : Bale).countsAgree := hb.of_stage hw hd rfl rfl

/-- A record whose net part alone is new, with its pulses below the target (R103, R125). -/
theorem of_net (hb : b.countsAgree) (hw : c.stage ≠ .wrapping) (hf : c.film = b.film) (hn : c.net = some n)
    (hlt : n.pulses < n.target) : c.countsAgree := by
  obtain ⟨film, -⟩ := hb
  refine ⟨fun f e => ?_, fun m e => ?_⟩
  · obtain ⟨breaks, layers, -⟩ := film f (hf ▸ e)
    exact ⟨breaks, layers, fun e => absurd e hw⟩
  · obtain rfl : n = m := Option.some.inj (hn.symm.trans e)
    exact ⟨Nat.le_of_lt hlt, fun _ => hlt⟩

/-- A record whose film part alone is new, with its layers below the target (R112, R133, R136). -/
theorem of_film (hb : b.countsAgree) (hd : c.stage ≠ .binding) (hn : c.net = b.net) (hf : c.film = some f)
    (hl : f.breaks.length ≤ Config.breakCapacity) (hlt : f.layers < f.target) : c.countsAgree := by
  obtain ⟨-, net⟩ := hb
  refine ⟨fun m e => ?_, fun n e => ?_⟩
  · obtain rfl : f = m := Option.some.inj (hf.symm.trans e)
    exact ⟨hl, by omega, fun _ => hlt⟩
  · obtain ⟨pulses, -⟩ := net n (hn ▸ e)
    exact ⟨pulses, fun e => absurd e hd⟩

/-- A pulse counted without reaching the target leaves the pulses below it (R126). -/
theorem pulsed (hb : b.countsAgree) (hg : b.stage = .binding) (hn : b.net = some n) (ht : n.pulses + 1 ≠ n.target) :
    (b.pulsed n).countsAgree := by
  obtain ⟨-, net⟩ := id hb
  obtain ⟨-, below⟩ := net n hn
  have := below hg
  exact hb.of_net (c := b.pulsed n) (n := { n with pulses := n.pulses + 1 }) (by rw [Bale.pulsed, hg]; decide) rfl rfl
    (by dsimp only; omega)

/-- The pulse that reaches the target makes the bale BOUND with its pulses at it (R126). -/
theorem bound (hb : b.countsAgree) (ht : n.pulses + 1 = n.target) :
    ({ b.pulsed n with stage := .bound } : Bale).countsAgree := by
  obtain ⟨film, -⟩ := hb
  refine ⟨fun f e => ?_, fun m e => ?_⟩
  · obtain ⟨breaks, layers, -⟩ := film f e
    exact ⟨breaks, layers, nofun⟩
  · obtain rfl : { n with pulses := n.pulses + 1 } = m := Option.some.inj e
    exact ⟨Nat.le_of_eq ht, nofun⟩

/-- Layers counted below the target (R133). -/
theorem wound {x : Nat} (hb : b.countsAgree) (hg : b.stage = .wrapping) (hf : b.film = some f)
    (hlt : f.layers + x < f.target) : (b.wound f x).countsAgree := by
  obtain ⟨film, -⟩ := id hb
  obtain ⟨breaks, -, -⟩ := film f hf
  exact hb.of_film (c := b.wound f x) (f := { f with layers := f.layers + x }) (by rw [Bale.wound, hg]; decide) rfl rfl
    breaks hlt

/-- One or two layers more than a count below the target are at most one above it, in the record now WRAPPED (R134). -/
theorem wrapped {x : Nat} (hb : b.countsAgree) (hg : b.stage = .wrapping) (hf : b.film = some f) (hx : x ≤ 2) :
    ({ b.wound f x with stage := .wrapped } : Bale).countsAgree := by
  obtain ⟨film, net⟩ := hb
  refine ⟨fun m e => ?_, fun n e => ?_⟩
  · obtain ⟨breaks, -, below⟩ := film f hf
    have := below hg
    obtain rfl : { f with layers := f.layers + x } = m := Option.some.inj e
    exact ⟨breaks, by dsimp only; omega, nofun⟩
  · obtain ⟨pulses, -⟩ := net n e
    exact ⟨pulses, nofun⟩

/-- A break is appended to a list of fewer than 4 entries only (R136). -/
theorem broken {x : FilmBreak} (hb : b.countsAgree) (hg : b.stage = .wrapping) (hf : b.film = some f) :
    (b.broken f x).countsAgree := by
  obtain ⟨film, -⟩ := id hb
  obtain ⟨-, -, below⟩ := film f hf
  unfold Bale.broken
  split
  · refine hb.of_film (f := { f with breaks := f.breaks ++ [x] }) (by dsimp only; rw [hg]; decide) rfl rfl ?_ (below hg)
    rw [List.length_append, List.length_singleton, Config.breakCapacity]
    omega
  · exact hb.of_parts rfl rfl rfl

end Bale.countsAgree
end

theorem Hub.newBale_countsAgree (h : Hub) (g : Stage) (recovered : Bool) : (h.newBale g recovered).countsAgree :=
  ⟨nofun, nofun⟩

/-! ### The counts of the part -/

section
variable {h k : Hub}

theorem Hub.countsAgree_iff : h.countsAgree ↔
    h.tracker.Every Bale.countsAgree ∧ 0 < h.params.filmTarget ∧ 0 < h.params.netTarget := by
  rw [Tracker.every_iff, and_assoc]
  rfl

namespace Hub.countsAgree

theorem every (hc : h.countsAgree) : h.tracker.Every Bale.countsAgree := (Hub.countsAgree_iff.mp hc).1

theorem filmTarget_pos (hc : h.countsAgree) : 0 < h.params.filmTarget := (Hub.countsAgree_iff.mp hc).2.1

theorem netTarget_pos (hc : h.countsAgree) : 0 < h.params.netTarget := (Hub.countsAgree_iff.mp hc).2.2

theorem of_every (hc : h.countsAgree) (hp : k.params = h.params) (hk : k.tracker.Every Bale.countsAgree) :
    k.countsAgree :=
  Hub.countsAgree_iff.mpr ⟨hk, hp ▸ hc.filmTarget_pos, hp ▸ hc.netTarget_pos⟩

theorem of_tracker (hc : h.countsAgree) {t : Tracker} (ht : t.Every Bale.countsAgree) :
    ({ h with tracker := t } : Hub).countsAgree := hc.of_every rfl ht

theorem with_inputs (hc : h.countsAgree) (x : Levels) : ({ h with inputs := x } : Hub).countsAgree := hc.of_every rfl hc.every

theorem with_sampler (hc : h.countsAgree) (x : Sampler) : ({ h with sampler := x } : Hub).countsAgree :=
  hc.of_every rfl hc.every

theorem with_counter (hc : h.countsAgree) (x : LayerCounter) : ({ h with counter := x } : Hub).countsAgree :=
  hc.of_every rfl hc.every

theorem advance (hc : h.countsAgree) (p : Place) {b : Bale} {g : Stage} (hb : ({ b with stage := g } : Bale).countsAgree) :
    (h.advance p b g).countsAgree :=
  hc.of_every (by simp) (by rw [Hub.advance_tracker]; exact hc.every.put_some p hb)

theorem evalFeedHold (hc : h.countsAgree) : h.evalFeedHold.countsAgree :=
  hc.of_every (by simp) (by rw [Hub.evalFeedHold_tracker]; exact hc.every.of_records rfl rfl rfl rfl)

end Hub.countsAgree

theorem countsAgree_baleInvariant : BaleInvariant Hub.countsAgree where
  same hc e := hc.of_every (Hub.balePart_params e) (Hub.balePart_tracker e ▸ hc.every)
  reportGrant h a d hc := by
    unfold Hub.reportGrant
    split
    · split
      · rename_i b hb
        split
        · have ejecting : (h.advance .chamber b .ejecting).countsAgree :=
            hc.advance .chamber ((hc.every.chamber b hb).restaged nofun nofun)
          exact ejecting.evalFeedHold
        · exact hc
      · exact hc
    · split
      · rename_i b hb
        split
        · exact hc.advance .table ((hc.every.table b hb).restaged nofun nofun)
        · exact hc
      · exact hc
    · exact hc

namespace Hub.countsAgree

theorem postTo (hc : h.countsAgree) (n : Notice) (l : List Role) : (h.postTo n l).countsAgree :=
  countsAgree_baleInvariant.postTo n l hc

theorem createBale (hc : h.countsAgree) (p : Place) (g : Stage) (recovered : Bool) :
    (h.createBale p g recovered).countsAgree := by
  refine hc.of_every (by simp) ?_
  rw [Hub.createBale_tracker]
  exact (hc.every.put_some p (h.newBale_countsAgree g recovered)).of_records rfl rfl rfl rfl

/-- A record logged keeps its net and film parts; its stage becomes DROPPED or stays (R121). -/
theorem logBale (hc : h.countsAgree) (p : Place) {b : Bale} (planned : Bool) (hb : b.countsAgree) :
    (h.logBale p b planned).countsAgree := by
  obtain ⟨x, -, stage, net, film, tracker⟩ := h.logBale_tracker p b planned
  have logged : x.countsAgree := by
    cases planned with
    | true => exact hb.of_stage (by rw [stage]; nofun) (by rw [stage]; nofun) net film
    | false => exact hb.of_parts stage net film
  refine hc.of_every (by simp) ?_
  obtain ⟨chamber, cradle, table, -⟩ := hc.every.put_none p
  rw [tracker]
  refine ⟨chamber, cradle, table, fun c hm => ?_⟩
  rcases List.mem_append.mp hm with hm | hm
  · refine hc.every.log c ?_
    split at hm
    · exact List.mem_of_mem_drop hm
    · exact hm
  · exact List.mem_singleton.mp hm ▸ logged

theorem lateCheck (hc : h.countsAgree) : h.lateCheck.countsAgree := by
  unfold Hub.lateCheck
  split
  · rename_i b _ hb
    split
    · have late := hc.every.put_some .cradle
        ((hc.every.cradle b hb).of_parts (c := { b with flags := { b.flags with tableLate := true } }) rfl rfl rfl)
      exact postTo (hc.of_tracker late) _ _
    · exact hc
  · exact hc

theorem startStopwatch (hc : h.countsAgree) : h.startStopwatch.countsAgree := by
  unfold Hub.startStopwatch
  split
  · rename_i b _ _ hb _
    split
    · have started := hc.every.put_some .cradle
        ((hc.every.cradle b hb).of_parts (c := { b with cradleWait := some (b.cradleWait.getD 0) }) rfl rfl rfl)
      exact lateCheck (hc.of_tracker (started.of_records rfl rfl rfl rfl))
    · exact hc
  · exact hc

end Hub.countsAgree
end

end Sys2Proof.Machine

namespace Sys2Proof.Machine

/-! ### Every command keeps the counts -/

section
variable {h : Hub}

namespace Hub.countsAgree

/-! #### Net and film -/

theorem netPulse (hc : h.countsAgree) : h.netPulse.countsAgree := by
  unfold Hub.netPulse
  split
  · rename_i b hb
    have agrees := hc.every.chamber b hb
    split
    · rename_i n hg hn _
      dsimp only
      split
      · rename_i ht
        refine hc.of_every (Hub.netTargetReached_params ..) ?_
        rw [Hub.netTargetReached_tracker]
        exact (hc.every.put_some .chamber (agrees.bound ht)).of_records rfl rfl rfl rfl
      · rename_i ht
        exact hc.of_tracker (hc.every.put_some .chamber (agrees.pulsed hg hn ht))
    · exact hc
  · exact hc

theorem netFault (hc : h.countsAgree) (mark : BaleFlags → BaleFlags) : (h.netFault mark).countsAgree :=
  have marked := hc.every.put_map .chamber (f := Bale.markFlags mark) fun _ hb => hb.of_parts rfl rfl rfl
  (hc.of_tracker marked).postTo _ _

theorem netStartTimeout (hc : h.countsAgree) : h.netStartTimeout.countsAgree := by
  unfold Hub.netStartTimeout
  split
  · exact (hc.with_counter _).netFault _
  · exact hc

theorem netGapTimeout (hc : h.countsAgree) : h.netGapTimeout.countsAgree := by
  unfold Hub.netGapTimeout
  split
  · exact (hc.with_counter _).netFault _
  · exact hc

theorem revolution (hc : h.countsAgree) : h.revolution.countsAgree := by
  unfold Hub.revolution
  split
  · rename_i b hb
    have agrees := hc.every.table b hb
    split
    · rename_i f hg hf
      dsimp only
      split
      · refine hc.of_every (Hub.filmTargetReached_params ..) ?_
        rw [Hub.filmTargetReached_tracker]
        exact hc.every.put_some .table (agrees.wrapped hg hf h.counter.readyCount_le)
      · rename_i ht
        exact hc.of_tracker (hc.every.put_some .table (agrees.wound hg hf (Nat.not_le.mp ht)))
    · exact hc
  · exact hc

theorem ringCount (hc : h.countsAgree) : h.ringCount.countsAgree := by
  unfold Hub.ringCount
  split
  · exact hc
  · split
    · exact hc.with_sampler _
    · exact (hc.with_sampler _).revolution

theorem ringIndexCount (hc : h.countsAgree) : h.ringIndexCount.countsAgree := by
  unfold Hub.ringIndexCount
  dsimp only
  split
  · exact (hc.with_sampler _).revolution
  · exact hc.of_every rfl hc.every

theorem captureBreak (hc : h.countsAgree) (d : Dispenser) : (h.captureBreak d).countsAgree := by
  unfold Hub.captureBreak
  split
  · rename_i b hb
    split
    · rename_i f hg hf
      exact hc.of_tracker (hc.every.put_some .table ((hc.every.table b hb).broken hg hf))
    · exact hc
  · exact hc

theorem setBreakInput (hc : h.countsAgree) (d : Dispenser) (level : Bool) : (h.setBreakInput d level).countsAgree :=
  hc.of_every (h.setBreakInput_params d level) (by rw [Hub.setBreakInput_tracker]; exact hc.every)

theorem filmBreakEdge (hc : h.countsAgree) (d : Dispenser) (active : Bool) : (h.filmBreakEdge d active).countsAgree := by
  cases active with
  | false => exact hc.setBreakInput d false
  | true =>
    cases hd : h.counter.dispenser d with
    | broken => rw [h.filmBreakEdge_of_broken hd]; exact hc.setBreakInput d true
    | ready =>
      have atEdge : (h.brokenAt d).countsAgree :=
        (((hc.setBreakInput d true).with_counter (h.counter.setDispenser d .broken)).postTo _ _).captureBreak d
      exact Hub.filmBreakEdge_induction Hub.countsAgree
        (fun _ hk => countsAgree_baleInvariant.service (countsAgree_baleInvariant.endMotion _ _ hk)) h hd atEdge

/-! #### Load switches and timers -/

theorem cradleLoadActive (hc : h.countsAgree) : h.cradleLoadActive.countsAgree := by
  have fault : ({ h with inputs := { h.inputs with cradleLoad := true } }.postAll .sensorFault).countsAgree :=
    (hc.with_inputs _).postTo _ _
  unfold Hub.cradleLoadActive
  dsimp only
  split
  · rename_i b hb _
    split
    · have carried := (hc.every.put_none .chamber).put_some .cradle
        (b := { b with stage := .carried }) ((hc.every.chamber b hb).restaged nofun nofun)
      exact ((((hc.with_inputs _).of_tracker carried).postTo _ _).startStopwatch).evalFeedHold
    · exact fault
  · exact fault

theorem cradleLoadInactive (hc : h.countsAgree) : h.cradleLoadInactive.countsAgree := by
  unfold Hub.cradleLoadInactive
  dsimp only
  split
  · exact hc.of_every rfl (hc.every.of_records rfl rfl rfl rfl)
  · exact hc.of_every rfl hc.every

theorem tableLoadActive (hc : h.countsAgree) : h.tableLoadActive.countsAgree := by
  have fault : ({ h with inputs := { h.inputs with tableLoad := true } }.postAll .sensorFault).countsAgree :=
    (hc.with_inputs _).postTo _ _
  unfold Hub.tableLoadActive
  dsimp only
  split
  · rename_i b hb _
    split
    · have onTable := (hc.every.put_none .cradle).put_some .table
        (b := { b with stage := .onTable }) ((hc.every.cradle b hb).restaged nofun nofun)
      have stopped : ({ (h.tracker.put .cradle none).put .table (some { b with stage := .onTable }) with
          transit := none, stopwatch := none } : Tracker).Every Bale.countsAgree := onTable.of_records rfl rfl rfl rfl
      exact ((hc.with_inputs _).of_tracker stopped).postTo _ _
    · exact fault
  · exact fault

theorem tableLoadInactive (hc : h.countsAgree) : h.tableLoadInactive.countsAgree := by
  have recorded : ({ h with inputs := { h.inputs with tableLoad := false } } : Hub).countsAgree := hc.with_inputs _
  unfold Hub.tableLoadInactive
  dsimp only
  split
  · rename_i b hb
    have agrees := hc.every.table b hb
    split
    case h_1 => exact recorded.logBale .table true agrees
    case h_2 | h_3 | h_4 =>
      exact countsAgree_baleInvariant.stopRingUnplanned (postTo (recorded.logBale .table false agrees) _ _)
    all_goals exact recorded
  · exact recorded

theorem transitTimeout (hc : h.countsAgree) : h.transitTimeout.countsAgree := by
  unfold Hub.transitTimeout
  split
  · dsimp only
    split
    · rename_i b hb
      have stopped : ({ h with tracker := { h.tracker with transit := none, stopwatch := none } } : Hub).countsAgree :=
        hc.of_tracker (hc.every.of_records rfl rfl rfl rfl)
      exact postTo (stopped.logBale .cradle false (hc.every.cradle b hb)) _ _
    · exact hc.of_tracker (hc.every.of_records rfl rfl rfl rfl)
  · exact hc

theorem tableLate (hc : h.countsAgree) : h.tableLate.countsAgree := by
  unfold Hub.tableLate
  split
  · exact lateCheck (hc.of_tracker (hc.every.put_map .cradle fun _ hb => hb.of_parts rfl rfl rfl))
  · exact hc

theorem stopwatchTick (hc : h.countsAgree) : h.stopwatchTick.countsAgree := by
  unfold Hub.stopwatchTick
  split
  · split
    · exact hc.of_tracker (hc.every.of_records rfl rfl rfl rfl)
    · have waited := hc.every.put_map .cradle (f := Bale.waitSecond) fun _ hb => hb.of_parts rfl rfl rfl
      exact lateCheck (hc.of_tracker (waited.of_records rfl rfl rfl rfl))
  · exact hc

theorem tick (hc : h.countsAgree) : h.tick.countsAgree :=
  stopwatchTick (hc.of_every rfl (hc.every.of_records rfl rfl rfl rfl))

theorem powerOn (levels : Levels) : (powerOnHub levels).countsAgree := by
  obtain ⟨-, -, -, -, -, -, -, reset, -⟩ := resetIsSound
  have fresh := reset.with_inputs levels
  unfold powerOnHub
  dsimp only
  split
  · exact countsAgree_baleInvariant.stopInputActive fresh
  · exact fresh

theorem restarted (hc : h.countsAgree) : h.restarted.countsAgree :=
  hc.of_every rfl (hc.every.of_records rfl rfl rfl rfl)

/-! #### Items -/

theorem baleStartItem (hc : h.countsAgree) (r : Role) : (baleStartItem r h).1.countsAgree := by
  unfold Machine.baleStartItem
  split
  · exact hc
  · split
    · exact hc
    · exact hc.createBale .chamber .forming false

theorem bindStartItem (hc : h.countsAgree) (r : Role) : (bindStartItem r h).1.countsAgree := by
  unfold Machine.bindStartItem
  split
  · exact hc
  · split
    · rename_i b hb
      split
      · have fresh : ({ b with net := some ⟨h.params.netTarget, 0⟩, stage := .binding } : Bale).countsAgree :=
          (hc.every.chamber b hb).of_net (by nofun) rfl rfl hc.netTarget_pos
        have armed : (h.advance .chamber { b with net := some ⟨h.params.netTarget, 0⟩ } .binding).armNetWatch.countsAgree :=
          countsAgree_baleInvariant.same (hc.advance .chamber fresh) rfl
        exact armed.evalFeedHold
      · exact hc
    · exact hc

theorem wrapStartItem (hc : h.countsAgree) (r : Role) : (wrapStartItem r h).1.countsAgree := by
  unfold Machine.wrapStartItem
  split
  · exact hc
  · split
    · rename_i b hb
      split
      · have fresh : ({ b with film := some ⟨h.params.filmTarget, 0, []⟩, stage := .wrapping } : Bale).countsAgree :=
          (hc.every.table b hb).of_film (by nofun) rfl rfl (Nat.zero_le _) hc.filmTarget_pos
        exact hc.advance .table fresh
      · exact hc
    · exact hc

theorem baleNoteItem (hc : h.countsAgree) (r : Role) (v : Half) : (baleNoteItem r v h).1.countsAgree := by
  unfold Machine.baleNoteItem
  dsimp only
  split
  · exact hc
  · split
    · exact hc
    · split
      · rename_i b hb
        exact hc.of_tracker (hc.every.put_some .chamber
          (b := { b with moisture := some v.toNat }) ((hc.every.chamber b hb).of_parts rfl rfl rfl))
      · exact hc
  · split
    · exact hc
    · split
      · rename_i b hb
        exact hc.of_tracker (hc.every.put_some .table
          (b := { b with weight := some v.toNat }) ((hc.every.table b hb).of_parts rfl rfl rfl))
      · exact hc

theorem declareBale (hc : h.countsAgree) (p : Place) (g : Stage) : (h.declareBale p g).countsAgree := by
  have created := hc.createBale p g true
  cases p with
  | chamber => exact created.evalFeedHold
  | cradle | table => exact created.startStopwatch

theorem baleDeclareItem (hc : h.countsAgree) (r : Role) (p g : Byte) : (baleDeclareItem r p g h).1.countsAgree := by
  unfold Machine.baleDeclareItem
  repeat' split
  case h_1.isFalse.isFalse => exact hc.declareBale _ _
  all_goals exact hc

theorem logDropItem (hc : h.countsAgree) (r : Role) (n : Byte) : (logDropItem r n h).1.countsAgree := by
  unfold Machine.logDropItem
  dsimp only
  split
  · exact hc
  · split
    · exact hc
    · obtain ⟨chamber, cradle, table, log⟩ := hc.every
      exact hc.of_tracker ⟨chamber, cradle, table, fun b hb => log b (List.mem_of_mem_drop hb)⟩

/-- A value in its range leaves both targets above 0 (R151, R154). -/
theorem paramSetItem (hc : h.countsAgree) (r : Role) (index : Byte) (v : Half) :
    (paramSetItem r index v h).1.countsAgree := by
  have film := hc.filmTarget_pos
  have net := hc.netTarget_pos
  have written (p : Param) (hv : p.inRange v.toNat = true) :
      ({ h with params := h.params.write p v.toNat } : Hub).countsAgree := by
    have range := of_decide_eq_true hv
    refine Hub.countsAgree_iff.mpr ⟨hc.every, ?_⟩
    cases p
    case filmTarget => exact ⟨by simp only [Param.range] at range; simp only [Params.write]; omega, net⟩
    case netTarget => exact ⟨film, by simp only [Param.range] at range; simp only [Params.write]; omega⟩
    all_goals exact ⟨film, net⟩
  unfold Machine.paramSetItem
  split
  · exact hc
  · rename_i p _
    split
    · exact hc
    · split
      · exact hc
      · split
        · exact hc
        · rename_i hv
          exact written p (by simpa using hv)

end Hub.countsAgree
end

/-- Every item that acts on the bale records or the parameters keeps the counts. -/
theorem item_keeps_countsAgree (i : Instr) (code : Byte) (f : Hub → Hub × Answer) (h : Hub)
    (hi : itemOf i = some (code, f)) (hw : writesBales i = true) (hc : h.countsAgree) : (f h).1.countsAgree := by
  cases i <;> simp only [itemOf, Option.some.injEq, Prod.mk.injEq, reduceCtorEq] at hi <;> obtain ⟨-, rfl⟩ := hi
  case baleStart => exact hc.baleStartItem _
  case bindStart => exact hc.bindStartItem _
  case wrapStart => exact hc.wrapStartItem _
  case baleNote => exact hc.baleNoteItem _ _
  case baleDeclare => exact hc.baleDeclareItem _ _ _
  case logDrop => exact hc.logDropItem _ _
  case paramSet => exact hc.paramSetItem _ _ _
  all_goals exact nomatch hw

/-- Every event that acts on the bale records keeps the counts. -/
theorem event_keeps_countsAgree (c : Instr) (f : Hub → Hub) (h : Hub) (hf : eventOf c = some f)
    (hw : writesBales c = true) (hc : h.countsAgree) : (f h).countsAgree := by
  cases c <;> simp only [eventOf, Option.some.injEq, reduceCtorEq] at hf <;> subst hf
  case powerOn => exact Hub.countsAgree.powerOn _
  case ringCount => exact hc.ringCount
  case ringIndexCount => exact hc.ringIndexCount
  case filmBreakEdge => exact hc.filmBreakEdge _ _
  case netPulse => exact hc.netPulse
  case netStartTimeout => exact hc.netStartTimeout
  case netGapTimeout => exact hc.netGapTimeout
  case cradleLoadActive => exact hc.cradleLoadActive
  case cradleLoadInactive => exact hc.cradleLoadInactive
  case tableLoadActive => exact hc.tableLoadActive
  case tableLoadInactive => exact hc.tableLoadInactive
  case transitTimeout => exact hc.transitTimeout
  case tableLate => exact hc.tableLate
  case prechamberFullEdge =>
    exact Hub.countsAgree.evalFeedHold (hc.with_inputs _)
  all_goals exact nomatch hw

/-- Settles O59: the commands that act on the records keep the counts of each, and every other command touches them by the
report of a grant alone. -/
theorem stepKeepsTheCounts : Obligations.StepKeepsTheCounts := fun _ _ hc ht =>
  countsAgree_baleInvariant.step hc ht item_keeps_countsAgree event_keeps_countsAgree (fun _ => Hub.countsAgree.restarted)
    fun _ => Hub.countsAgree.tick

end Sys2Proof.Machine

namespace Sys2Proof.Machine

/-! ## Notices and attention lines

A line follows its sets because no operation writes a set without settling the line: commands reach the sets by postings alone,
but for NOTICE_CLEAR, NOTICE_MASK, power-on and a restart. `NoticeInvariant` goes through the commands that post, once. -/

/-! ### Postings and replaced sets -/

/-- A property of the notice sets and lines that every posting keeps. -/
structure NoticeInvariant (P : Hub → Prop) : Prop where
  same : ∀ {h k : Hub}, P h → k.notices = h.notices → P k
  post : ∀ (h : Hub) (n : Notice) (r : Role), P h → P (h.post n r)

@[simp] theorem Hub.setNotices_get (h : Hub) (r q : Role) (p : NoticePort) :
    (h.setNotices r p).notices.get q = if q = r then p else h.notices.get q := PerRole.get_set ..

/-- A conversion to park posts nothing (R69). -/
theorem Hub.convertToPark_notices (h : Hub) : h.convertToPark.notices = h.notices := by
  have e := congrArg Hub.notices h.convertToPark_frame.1; exact e

section
variable {h : Hub}

/-- Sets with a settled line may replace those of a port (R149). -/
theorem Hub.linesAgree.setNotices (hl : h.linesAgree) (r : Role) {p : NoticePort} (hp : p.line = p.lineOf) :
    (h.setNotices r p).linesAgree := by
  intro q
  rw [Hub.setNotices_get]
  split
  · exact hp
  · exact hl q

/-- Sets just reset are empty, and their lines inactive (R150). -/
theorem Hub.linesAgree_of_reset (e : h.notices = .all .reset) : h.linesAgree := by
  intro r
  rw [e, PerRole.get_all]
  decide

theorem linesAgree_noticeInvariant : NoticeInvariant Hub.linesAgree where
  same hl e r := by rw [e]; exact hl r
  post h n r hl q := h.postTo_line n [r] q (hl q)

end

end Sys2Proof.Machine

namespace Sys2Proof.Machine

/-! ### Every command keeps what postings keep -/

/-- The items that neither post a notice nor write a notice set. -/
def leavesNotices : Instr → Bool
  | .claim _ _ | .refresh _ _ | .axisRead _ _ | .flowRead _ | .bindRetry _ | .filmReset _ _ | .baleNote _ _ | .baleRead _
  | .logRead _ | .logDrop _ _ | .paramGet _ _ | .paramSet _ _ _ | .zoneGet _ _ _ | .zoneSetBounds _ _ _
  | .zoneSetEntry _ _ _ _ _ | .clearStop _ | .restart _ | .status _ | .noticeRead _ => true
  | _ => false

/-- The commands that write notice sets in another way than by posting: two items, and power-on. -/
def writesNotices : Instr → Bool
  | .noticeClear _ _ | .noticeMask _ _ | .powerOn _ => true
  | _ => false

theorem item_notices {i : Instr} {code : Byte} {f : Hub → Hub × Answer} (hi : itemOf i = some (code, f))
    (hq : leavesNotices i = true) (h : Hub) : (f h).1.notices = h.notices := by
  cases i <;> simp only [itemOf, Option.some.injEq, Prod.mk.injEq, reduceCtorEq] at hi <;> obtain ⟨-, rfl⟩ := hi
  case flowRead | baleRead | paramGet | status | noticeRead => rfl
  case axisRead => rw [axisReadItem_hub]
  case logRead => rw [logReadItem_hub]
  case zoneGet => rw [zoneGetItem_hub]
  case release | handover | move | stop | allStop | baleStart | bindStart | wrapStart | baleDeclare | modeSet | noticeClear
      | noticeMask => exact nomatch hq
  all_goals
    dsimp only [claimItem, refreshItem, bindRetryItem, filmResetItem, baleNoteItem, logDropItem, paramSetItem,
      zoneSetBoundsItem, zoneSetEntryItem, clearStopItem, restartItem]
    repeat' split
  all_goals rfl

section
variable {P : Hub → Prop} (K : NoticeInvariant P)
include K

namespace NoticeInvariant

theorem postTo {h : Hub} (n : Notice) (l : List Role) (hp : P h) : P (h.postTo n l) := by
  induction l generalizing h with
  | nil => exact hp
  | cons r l ih => exact ih (K.post _ _ _ hp)

/-- A block written, and the notice of it posted. -/
theorem postTo_of_notices {h k : Hub} (n : Notice) (l : List Role) (hp : P h) (e : k.notices = h.notices) :
    P (k.postTo n l) := K.postTo n l (K.same hp e)

/-! #### Ends, grants and the service -/

theorem endMotion {h : Hub} (a : Axis) (c : EndCause) (hp : P h) : P (h.endMotion a c) :=
  K.same (K.postTo _ _ hp) (h.endMotion_notices a c)

theorem dropClaim {h : Hub} (a : Axis) (c : EndCause) (hp : P h) : P (h.dropClaim a c) :=
  K.same (K.postTo _ _ hp) (h.dropClaim_notices a c)

theorem dropAllClaims {h : Hub} (hp : P h) : P h.dropAllClaims :=
  Hub.dropAllClaims_induction P (fun _ _ hk _ => K.dropClaim _ _ hk) h hp

theorem evalFeedHold {h : Hub} (hp : P h) : P h.evalFeedHold := by
  unfold Hub.evalFeedHold
  dsimp only
  split
  · exact K.postTo_of_notices _ _ hp rfl
  · exact K.same hp rfl

theorem advance {h : Hub} (p : Place) (b : Bale) (g : Stage) (hp : P h) : P (h.advance p b g) :=
  K.postTo_of_notices _ _ hp rfl

theorem reportGrant {h : Hub} (a : Axis) (d : Direction) (hp : P h) : P (h.reportGrant a d) := by
  have advanced (p : Place) (b : Bale) (g : Stage) : P (h.advance p b g) := K.advance p b g hp
  unfold Hub.reportGrant
  split
  · split
    · split
      · exact K.evalFeedHold (advanced _ _ _)
      · exact hp
    · exact hp
  · split
    · split
      · exact advanced _ _ _
      · exact hp
    · exact hp
  · exact hp

theorem grant {h : Hub} (a : Axis) (hp : P h) : P (h.grant a) := K.reportGrant _ _ (K.same hp rfl)

theorem service {h : Hub} (hp : P h) : P h.service :=
  Hub.service_induction P (fun _ e _ c hk _ _ => K.same (K.endMotion e.axis c hk) rfl)
    (fun _ e _ hk _ _ _ => K.postTo _ _ (K.grant e.axis (K.same hk rfl))) h hp

theorem dropAndServe {h : Hub} (a : Axis) (c : EndCause) (hp : P h) : P (h.dropAndServe a c) := by
  unfold Hub.dropAndServe
  split
  · exact K.service (K.dropClaim _ _ hp)
  · exact K.dropClaim _ _ hp

theorem suspend {h : Hub} (vs : List Axis) (hp : P h) : P (h.suspend vs) := by
  have paused (l : List Axis) (k : Hub) (hk : P k) : P (l.foldl Hub.pause k) := by
    induction l generalizing k with
    | nil => exact hk
    | cons v l ih => exact ih _ (K.postTo_of_notices _ _ hk rfl)
  have joined (l : List Axis) (k : Hub) (hk : P k) : P (l.foldl (fun h v => h.enqueue v .resume) k) := by
    induction l generalizing k with
    | nil => exact hk
    | cons v l ih => exact ih _ (K.same hk rfl)
  exact joined _ _ (paused vs h hp)

theorem askFlow {h : Hub} (a : Axis) (c : MotionClass) (hp : P h) : P (h.askFlow a c).1 := by
  have queued : P (h.queueMotion a c) := K.same hp rfl
  have granted : P (h.grant a) := K.grant a hp
  have preempted : P (h.preempt a) := K.service (K.grant a (K.suspend _ hp))
  unfold Hub.askFlow
  dsimp only
  repeat' split
  case h_1.isTrue | h_2.isFalse.isTrue => exact granted
  case h_2.isFalse.isFalse.isTrue => exact preempted
  all_goals exact queued

/-! #### Bale records -/

theorem lateCheck {h : Hub} (hp : P h) : P h.lateCheck := by
  unfold Hub.lateCheck
  repeat' split
  case h_1.isTrue => exact K.postTo_of_notices _ _ hp rfl
  all_goals exact hp

theorem startStopwatch {h : Hub} (hp : P h) : P h.startStopwatch := by
  unfold Hub.startStopwatch
  repeat' split
  case h_1.isTrue => exact K.lateCheck (K.same hp rfl)
  all_goals exact hp

theorem createBale {h : Hub} (p : Place) (g : Stage) (recovered : Bool) (hp : P h) : P (h.createBale p g recovered) :=
  K.postTo_of_notices _ _ hp rfl

theorem logBale {h : Hub} (p : Place) (b : Bale) (planned : Bool) (hp : P h) : P (h.logBale p b planned) := by
  have moved (t : Tracker) : P ({ h with tracker := t }.postAll .baleMoved) := K.postTo_of_notices _ _ hp rfl
  exact iteInduction (motive := P) (fun _ => K.postTo _ _ (moved _)) fun _ => moved _

/-! #### Items on axes -/

theorem releaseItem {h : Hub} (r : Role) (axis : Byte) (hp : P h) : P (releaseItem r axis h).1 := by
  unfold Machine.releaseItem
  repeat' split
  case h_2.isFalse.isFalse => exact K.dropAndServe _ _ hp
  all_goals exact hp

theorem handoverItem {h : Hub} (r : Role) (axis p : Byte) (hp : P h) : P (handoverItem r axis p h).1 := by
  unfold Machine.handoverItem
  repeat' split
  case h_1.isFalse.isFalse.isFalse.isFalse => exact K.postTo_of_notices _ _ hp rfl
  all_goals exact hp

theorem retarget {h : Hub} (a : Axis) (d : Direction) (t : Target) (hold : Nat) (cls : Option MotionClass) (hp : P h) :
    P (h.retarget a d t hold cls).1 := by
  unfold Hub.retarget
  dsimp only
  repeat' split
  case h_1 => rwa [Hub.valueAnswer_hub]
  case h_2.isFalse.isTrue => exact K.service (K.endMotion _ _ (K.same hp rfl))
  case h_2.isFalse.isFalse.isFalse => exact K.same hp rfl
  all_goals exact hp

theorem takeUp {h : Hub} (a : Axis) (d : Direction) (t : Target) (c : MotionClass) (hold : Nat) (hp : P h) :
    P (h.takeUp a d t c hold).1 := by
  have asked : P ((h.setRecord a ((h.record a).withMotion d t c hold)).askFlow a c).1 := K.askFlow a c (K.same hp rfl)
  unfold Hub.takeUp
  split
  · exact hp
  · split
    · exact hp
    · split
      · exact hp
      · split <;> (rename_i he; rw [he] at asked; exact asked)

theorem newMotion {h : Hub} (a : Axis) (d : Direction) (t : Target) (hold : Nat) (cls : Option MotionClass) (hp : P h) :
    P (h.newMotion a d t hold cls).1 := by
  unfold Hub.newMotion
  repeat' split
  case h_1 => rwa [Hub.valueAnswer_hub]
  case h_3.isTrue => exact K.endMotion _ _ (K.same hp rfl)
  case h_3.isFalse => exact K.takeUp _ _ _ _ _ hp
  all_goals exact hp

theorem moveItem {h : Hub} (r : Role) (m : MoveArgs) (hp : P h) : P (moveItem r m h).1 := by
  unfold Machine.moveItem
  dsimp only
  repeat' split
  case h_4.isTrue => exact K.retarget _ _ _ _ _ hp
  case h_5 => exact K.newMotion _ _ _ _ _ hp
  all_goals exact hp

theorem stopItem {h : Hub} (r : Role) (axis : Byte) (hp : P h) : P (stopItem r axis h).1 := by
  unfold Machine.stopItem
  dsimp only
  split
  · exact hp
  · split
    · exact hp
    · split
      · exact hp
      · split
        · exact K.service (K.endMotion _ _ hp)
        · exact hp

theorem allStopItem {h : Hub} (r : Role) (hp : P h) : P (allStopItem r h).1 := by
  have ended : P (h.endMotions h.inFlightAxes .allStop) :=
    Hub.endMotions_induction P .allStop (fun _ a hk => K.endMotion a .allStop hk) h _ hp
  unfold Machine.allStopItem
  dsimp only
  split
  · exact ended
  · exact K.service ended

/-! #### Items on bales and the mode -/

theorem baleStartItem {h : Hub} (r : Role) (hp : P h) : P (baleStartItem r h).1 := by
  unfold Machine.baleStartItem
  repeat' split
  case isFalse.isFalse => exact K.createBale _ _ _ hp
  all_goals exact hp

theorem bindStartItem {h : Hub} (r : Role) (hp : P h) : P (bindStartItem r h).1 := by
  have binding (b : Bale) : P (h.startBinding b) := by
    have advanced := K.advance .chamber { b with net := some ⟨h.params.netTarget, 0⟩ } .binding hp
    exact K.evalFeedHold (K.same advanced rfl)
  unfold Machine.bindStartItem
  repeat' split
  case h_1.isTrue => exact binding _
  all_goals exact hp

theorem wrapStartItem {h : Hub} (r : Role) (hp : P h) : P (wrapStartItem r h).1 := by
  unfold Machine.wrapStartItem
  repeat' split
  case h_1.isTrue => exact K.advance _ _ _ hp
  all_goals exact hp

theorem declareBale {h : Hub} (p : Place) (g : Stage) (hp : P h) : P (h.declareBale p g) := by
  have created := K.createBale p g true hp
  cases p with
  | chamber => exact K.evalFeedHold created
  | cradle | table => exact K.startStopwatch created

theorem baleDeclareItem {h : Hub} (r : Role) (p g : Byte) (hp : P h) : P (baleDeclareItem r p g h).1 := by
  unfold Machine.baleDeclareItem
  repeat' split
  case h_1.isFalse.isFalse => exact K.declareBale _ _ hp
  all_goals exact hp

theorem modeSetItem {h : Hub} (r : Role) (mode : Byte) (hp : P h) : P (modeSetItem r mode h).1 := by
  have entered : P h.enterRun.1 := by
    unfold Hub.enterRun
    split <;> exact K.same hp rfl
  unfold Machine.modeSetItem
  repeat' split
  case h_2 => exact entered
  case h_3 => exact K.same (K.dropAllClaims hp) (Hub.setMode_notices ..)
  all_goals exact hp

/-- Every item but those of `writesNotices` keeps the property. -/
theorem item {i : Instr} {code : Byte} {f : Hub → Hub × Answer} {h : Hub} (hi : itemOf i = some (code, f))
    (hw : writesNotices i = false) (hp : P h) : P (f h).1 := by
  cases hq : leavesNotices i with
  | true => exact K.same hp (item_notices hi hq h)
  | false =>
    cases i <;> simp only [itemOf, Option.some.injEq, Prod.mk.injEq, reduceCtorEq] at hi <;> obtain ⟨-, rfl⟩ := hi
    case release => exact K.releaseItem _ _ hp
    case handover => exact K.handoverItem _ _ _ hp
    case move => exact K.moveItem _ _ hp
    case stop => exact K.stopItem _ _ hp
    case allStop => exact K.allStopItem _ hp
    case baleStart => exact K.baleStartItem _ hp
    case bindStart => exact K.bindStartItem _ hp
    case wrapStart => exact K.wrapStartItem _ hp
    case baleDeclare => exact K.baleDeclareItem _ _ _ hp
    case modeSet => exact K.modeSetItem _ _ hp
    case noticeClear | noticeMask => exact nomatch hw
    all_goals exact nomatch hq

/-! #### Events on net and film -/

theorem revolution {h : Hub} (hp : P h) : P h.revolution := by
  have reached (k : Hub) (b : Bale) (hk : P k) : P (k.filmTargetReached b) :=
    K.same (K.postTo .filmDone [.wr, .ct] (K.advance .table b .wrapped hk)) (Hub.convertToPark_notices _)
  unfold Hub.revolution
  dsimp only
  repeat' split
  case h_1.isTrue => exact reached _ _ (K.same hp rfl)
  case h_1.isFalse => exact K.same hp rfl
  all_goals exact hp

theorem ringCount {h : Hub} (hp : P h) : P h.ringCount := by
  unfold Hub.ringCount
  repeat' split
  case isFalse.isFalse => exact K.revolution (K.same hp rfl)
  case isFalse.isTrue => exact K.same hp rfl
  case isTrue => exact hp

theorem ringIndexCount {h : Hub} (hp : P h) : P h.ringIndexCount := by
  unfold Hub.ringIndexCount
  dsimp only
  split
  · exact K.revolution (K.same hp rfl)
  · exact K.same hp rfl

theorem filmBreakEdge {h : Hub} (d : Dispenser) (active : Bool) (hp : P h) : P (h.filmBreakEdge d active) := by
  have recorded (level : Bool) : P (h.setBreakInput d level) := by cases d <;> exact K.same hp rfl
  have captured (k : Hub) (hk : P k) : P (k.captureBreak d) := by
    unfold Hub.captureBreak
    repeat' split
    all_goals exact K.same hk rfl
  cases active with
  | false => exact recorded false
  | true =>
    cases hd : h.counter.dispenser d with
    | broken => rw [h.filmBreakEdge_of_broken hd]; exact recorded true
    | ready =>
      have atEdge : P (h.brokenAt d) := captured _ (K.postTo_of_notices _ _ (recorded true) rfl)
      exact Hub.filmBreakEdge_induction P (fun _ hk => K.service (K.endMotion _ _ hk)) h hd atEdge

theorem netPulse {h : Hub} (hp : P h) : P h.netPulse := by
  have reached (k : Hub) (b : Bale) (hk : P k) : P (k.netTargetReached b) := by
    have posted := K.postTo .netDone [.ch, .ct] (K.advance .chamber b .bound hk)
    exact K.evalFeedHold (K.same posted rfl)
  unfold Hub.netPulse
  dsimp only
  repeat' split
  case h_1.isTrue => exact reached _ _ (K.same hp rfl)
  case h_1.isFalse => exact K.same hp rfl
  all_goals exact hp

theorem netStartTimeout {h : Hub} (hp : P h) : P h.netStartTimeout := by
  unfold Hub.netStartTimeout
  split
  · exact K.postTo_of_notices _ _ hp rfl
  · exact hp

theorem netGapTimeout {h : Hub} (hp : P h) : P h.netGapTimeout := by
  unfold Hub.netGapTimeout
  split
  · exact K.postTo_of_notices _ _ hp rfl
  · exact hp

/-! #### Events on bales -/

theorem cradleLoadActive {h : Hub} (hp : P h) : P h.cradleLoadActive := by
  unfold Hub.cradleLoadActive
  dsimp only
  repeat' split
  case h_1.isTrue => exact K.evalFeedHold (K.startStopwatch (K.postTo_of_notices _ _ hp rfl))
  all_goals exact K.postTo_of_notices _ _ hp rfl

theorem cradleLoadInactive {h : Hub} (hp : P h) : P h.cradleLoadInactive := by
  unfold Hub.cradleLoadInactive
  dsimp only
  split <;> exact K.same hp rfl

theorem tableLoadActive {h : Hub} (hp : P h) : P h.tableLoadActive := by
  unfold Hub.tableLoadActive
  dsimp only
  repeat' split
  all_goals exact K.postTo_of_notices _ _ hp rfl

theorem tableLoadInactive {h : Hub} (hp : P h) : P h.tableLoadInactive := by
  have ringStopped (k : Hub) (hk : P k) : P k.stopRingUnplanned := by
    unfold Hub.stopRingUnplanned
    split
    · exact K.service (K.endMotion _ _ hk)
    · exact hk
  have recorded : P { h with inputs := { h.inputs with tableLoad := false } } := K.same hp rfl
  unfold Hub.tableLoadInactive
  dsimp only
  repeat' split
  case h_1 => exact K.logBale _ _ _ recorded
  case h_2 | h_3 | h_4 => exact ringStopped _ (K.postTo _ _ (K.logBale _ _ _ recorded))
  all_goals exact recorded

theorem transitTimeout {h : Hub} (hp : P h) : P h.transitTimeout := by
  unfold Hub.transitTimeout
  dsimp only
  repeat' split
  case h_1 => exact K.postTo _ _ (K.logBale _ _ _ (K.same hp rfl))
  all_goals exact K.same hp rfl

theorem tableLate {h : Hub} (hp : P h) : P h.tableLate := by
  unfold Hub.tableLate
  split
  · exact K.lateCheck (K.same hp rfl)
  · exact hp

/-! #### Events on axes, the stop chain and time -/

theorem leaseExpiry {h : Hub} (a : Axis) (hp : P h) : P (h.leaseExpiry a) := by
  unfold Hub.leaseExpiry
  split
  · exact hp
  · exact K.dropAndServe _ _ hp

theorem waitTimeout {h : Hub} (a : Axis) (hp : P h) : P (h.waitTimeout a) := by
  unfold Hub.waitTimeout
  split
  · exact K.service (K.same (K.endMotion _ _ hp) rfl)
  · exact hp

theorem sample {h : Hub} (volts : Voltages) (hp : P h) : P (h.sample volts) := by
  have taken : P (h.taken volts) := by
    unfold Hub.taken
    split
    · exact K.postTo_of_notices _ _ hp rfl
    · exact K.same hp rfl
  exact Hub.evaluate_induction P (fun _ a c hk => K.endMotion a c hk) (fun _ hk => K.service hk) _ h taken

theorem stopInputActive {h : Hub} (hp : P h) : P h.stopInputActive := by
  have recorded : P { h with inputs := { h.inputs with stop := true } } := K.same hp rfl
  have stopped (k : Hub) (hk : P k) :
      P ({ k with control := { k.control with mode := .stopped, stopLatch := true } }.postAll .stopLatched) :=
    K.postTo_of_notices _ _ hk rfl
  unfold Hub.stopInputActive
  dsimp only
  split
  · exact stopped _ (K.dropAllClaims recorded)
  · exact stopped _ recorded

/-- Power-on keeps what its reset gives. -/
theorem powerOn (levels : Levels) (reset : P Hub.reset) : P (powerOnHub levels) := by
  have fresh : P { Hub.reset with inputs := levels } := K.same reset rfl
  unfold powerOnHub
  dsimp only
  split
  · exact K.stopInputActive fresh
  · exact fresh

theorem tick {h : Hub} (hp : P h) : P h.tick := by
  have counted (k : Hub) (hk : P k) : P k.stopwatchTick := by
    unfold Hub.stopwatchTick
    repeat' split
    case h_1.isTrue => exact K.same hk rfl
    case h_1.isFalse => exact K.lateCheck (K.same hk rfl)
    case h_2 => exact hk
  exact counted _ (K.same hp rfl)

/-- Every event but those of `writesNotices` keeps the property. -/
theorem event {c : Instr} {f : Hub → Hub} {h : Hub} (hc : eventOf c = some f) (hw : writesNotices c = false) (hp : P h) :
    P (f h) := by
  cases c <;> simp only [eventOf, Option.some.injEq, reduceCtorEq] at hc <;> subst hc
  case powerOn => exact nomatch hw
  case sample => exact K.sample _ hp
  case ringCount => exact K.ringCount hp
  case ringIndexCount => exact K.ringIndexCount hp
  case leaseExpiry => exact K.leaseExpiry _ hp
  case waitTimeout => exact K.waitTimeout _ hp
  case filmBreakEdge => exact K.filmBreakEdge _ _ hp
  case netPulse => exact K.netPulse hp
  case netStartTimeout => exact K.netStartTimeout hp
  case netGapTimeout => exact K.netGapTimeout hp
  case cradleLoadActive => exact K.cradleLoadActive hp
  case cradleLoadInactive => exact K.cradleLoadInactive hp
  case tableLoadActive => exact K.tableLoadActive hp
  case tableLoadInactive => exact K.tableLoadInactive hp
  case transitTimeout => exact K.transitTimeout hp
  case tableLate => exact K.tableLate hp
  case prechamberFullEdge => exact K.evalFeedHold (K.same hp rfl)
  case stopInputActive => exact K.stopInputActive hp
  case inclinometerEdge | inclinometerTimeout | netFeedEdge | fieldClockTick | stopInputInactive => exact K.same hp rfl

/-- Every step keeps the property, when NOTICE_CLEAR, NOTICE_MASK and a restart do and reset has it. -/
theorem step {s t : State} (hp : P s.hub) (ht : step s = .next t) (reset : P Hub.reset)
    (restarted : ∀ h, P h → P (Hub.restarted h))
    (clear : ∀ h r k, P h → P (noticeClearItem r k h).1) (mask : ∀ h r k, P h → P (noticeMaskItem r k h).1) : P t.hub := by
  have every : ItemInvariant P :=
    { sameBlocks := fun hh hk => K.same hh (by have e := congrArg Hub.notices hk; exact e)
      overrun := fun _ _ hh => K.post _ _ _ hh
      restarted := restarted
      item := fun i code f h hi hh => by
        cases hw : writesNotices i with
        | false => exact K.item hi hw hh
        | true =>
          cases i <;> simp only [writesNotices, Bool.false_eq_true] at hw
          case noticeClear => cases hi; exact clear _ _ _ hh
          case noticeMask => cases hi; exact mask _ _ _ hh
          case powerOn => exact nomatch hi }
  refine every.step (fun c f h hc hh => ?_) (fun _ => K.tick) hp ht
  cases hw : writesNotices c with
  | false => exact K.event hc hw hh
  | true =>
    cases c <;> simp only [writesNotices, Bool.false_eq_true] at hw
    case powerOn levels => cases hc; exact K.powerOn levels reset
    case noticeClear | noticeMask => exact nomatch hc

end NoticeInvariant
end

end Sys2Proof.Machine

namespace Sys2Proof.Machine

open Says

/-! ### The attention lines -/

section
variable {h : Hub}

theorem Hub.linesAgree.noticeClearItem (hl : h.linesAgree) (r : Role) (k : KindBits) :
    (noticeClearItem r k h).1.linesAgree := by
  unfold Machine.noticeClearItem
  split
  · exact hl
  · exact hl.setNotices r rfl

theorem Hub.linesAgree.noticeMaskItem (hl : h.linesAgree) (r : Role) (k : KindBits) :
    (noticeMaskItem r k h).1.linesAgree := by
  unfold Machine.noticeMaskItem
  split
  · exact hl
  · exact hl.setNotices r rfl

end

/-- Settles O54: a posting settles the line of its port, NOTICE_CLEAR and NOTICE_MASK settle theirs, power-on and a restart leave
empty sets with inactive lines, and no other command writes a set. -/
theorem stepKeepsTheAttentionLines : Obligations.StepKeepsTheAttentionLines := fun _ _ hl ht =>
  linesAgree_noticeInvariant.step hl ht (Hub.linesAgree_of_reset rfl) (fun _ _ => Hub.linesAgree_of_reset rfl)
    (fun _ r k hh => hh.noticeClearItem r k) fun _ r k hh => hh.noticeMaskItem r k

/-! ### The notice items -/

theorem argKinds_of_lt {k : KindBits} (hk : k.toNat < 2 ^ 17) : argKinds k = some (k.setWidth 17) := if_pos hk

/-- A set that names a kind above 16 is no kind set (R147, R148). -/
theorem argKinds_of_le {k : KindBits} (hk : 2 ^ 17 ≤ k.toNat) : argKinds k = none := if_neg (Nat.not_lt.mpr hk)

theorem postingAddsTheKind_holds : postingAddsTheKind := by
  intro h n r q
  refine ⟨?_, ?_, ?_, fun hq => ?_, rfl⟩
  · rw [Hub.post_get, if_pos rfl, NoticePort.post_pending]
  · rw [Hub.post_get, if_pos rfl, NoticePort.post_enable]
  · rw [Hub.post_get, if_pos rfl, NoticePort.post_line]
    exact bne_iff_ne
  · rw [Hub.post_get, if_neg hq]

theorem noticeReadIsTaken_holds : noticeReadIsTaken := fun _ _ => rfl

theorem noticeClearIsTaken_holds : noticeClearIsTaken := by
  intro s r k p left
  have taken : exec (.noticeClear r k) s = s.item 0x52#8 (noticeClearItem r k) := rfl
  rw [taken, State.item_eq, noticeClearItem]
  by_cases hk : 2 ^ 17 ≤ k.toNat
  · rw [if_pos hk, argKinds_of_le hk]; rfl
  · rw [if_neg hk, argKinds_of_lt (Nat.not_le.mp hk), List.append_assoc]; rfl

theorem noticeMaskIsTaken_holds : noticeMaskIsTaken := by
  intro s r k p enable
  have taken : exec (.noticeMask r k) s = s.item 0x53#8 (noticeMaskItem r k) := rfl
  rw [taken, State.item_eq, noticeMaskItem]
  by_cases hk : 2 ^ 17 ≤ k.toNat
  · rw [if_pos hk, argKinds_of_le hk]; rfl
  · rw [if_neg hk, argKinds_of_lt (Nat.not_le.mp hk)]; rfl

/-- Settles O42: one law for a posting and one equation for each of the three items. -/
theorem noticeItemsAreTaken : Obligations.NoticeItemsAreTaken :=
  ⟨postingAddsTheKind_holds, noticeReadIsTaken_holds, noticeClearIsTaken_holds, noticeMaskIsTaken_holds⟩

end Sys2Proof.Machine

/-! ## Parameters, modes and start-up

A parameter is found by its index and described by one row, so the table of a statement is compared with the model's columns once
for each parameter, and the two requests are then read from the row. -/

namespace Sys2Proof.Machine

open Says

/-! ### The parameter at an index -/

/-- The index of a parameter (R151). -/
def Param.index : Param → Nat
  | .flowBudget => 0
  | .demand a => a.number + 1
  | .urgentOk a => a.number + 7
  | .claimants a => a.number + 13
  | .tolerance a => a.number + 19
  | .ringPark => 25
  | .slopeLimit => 26
  | .claimLease => 27
  | .waitLimit => 28
  | .netTarget => 29
  | .netStartLimit => 30
  | .netGapLimit => 31
  | .filmTarget => 32
  | .tableLateLimit => 33
  | .fieldClock => 34
  | .nextBale => 35

theorem Axis.number_of_ofNumber {n : Nat} {a : Axis} (ha : Axis.ofNumber n = some a) : a.number = n := by
  unfold Axis.ofNumber at ha
  split at ha <;> cases ha <;> rfl

/-- The parameter at an index has that index. -/
theorem Param.index_of_ofIndex {n : Nat} {p : Param} (hp : Param.ofIndex n = some p) : p.index = n := by
  unfold Param.ofIndex at hp
  split at hp
  · cases hp; exact Eq.symm ‹n = 0›
  · have axes {f : Axis → Param} {first : Nat} (hn : first ≤ n) (hf : ∀ a, (f a).index = a.number + first)
        (hp : (Axis.ofNumber (n - first)).map f = some p) : p.index = n := by
      obtain ⟨a, ha, rfl⟩ := Option.map_eq_some_iff.mp hp
      rw [hf, Axis.number_of_ofNumber ha, Nat.sub_add_cancel hn]
    split at hp
    · exact axes (f := .demand) (by omega) (fun _ => rfl) hp
    · split at hp
      · exact axes (f := .urgentOk) (by omega) (fun _ => rfl) hp
      · split at hp
        · exact axes (f := .claimants) (by omega) (fun _ => rfl) hp
        · split at hp
          · exact axes (f := .tolerance) (by omega) (fun _ => rfl) hp
          · split at hp <;> cases hp <;> rfl

/-- Every index below 36 holds a parameter (R151). -/
theorem Param.le_of_ofIndex_none {n : Nat} (hn : Param.ofIndex n = none) : 36 ≤ n := by
  have held : ∀ m < 36, Param.ofIndex m ≠ none := by decide
  exact Nat.not_lt.mp fun hlt => held n hlt hn

/-! ### The table of a statement, at the index of a parameter -/

/-- The row of a parameter, from the model's access classes and ranges (R151, R152). -/
def Param.row (p : Param) : ParamRow :=
  ⟨Role.list.filter fun r => p.access r ≠ .readOnly, p.access .ct = .gated, p.range.1, p.range.2⟩

theorem Param.mem_writers (p : Param) (r : Role) : r ∈ p.row.writers ↔ p.access r ≠ .readOnly := by
  have every : r ∈ Role.list := by cases r <;> decide
  simp [Param.row, every]

/-- Only CT writes a gated parameter, so it is gated to each of its writers (R151, R152). -/
theorem Param.setupOnly_iff {p : Param} {r : Role} (hr : p.access r ≠ .readOnly) :
    p.row.setupOnly = true ↔ p.access r = .gated := by
  rw [Param.row, decide_eq_true_iff]
  cases p <;> cases r <;> simp [Param.access] at hr ⊢

theorem Says.paramRow_index (p : Param) : paramRow p.index = some p.row := by
  cases p
  case demand a | urgentOk a | claimants a | tolerance a => cases a <;> rfl
  all_goals rfl

theorem Says.valueAt_index (s : State) (p : Param) : valueAt s p.index = s.hub.paramValue p := by
  cases p
  case urgentOk a =>
    rw [Hub.paramValue, apply_ite (BitVec.ofNat 32)]
    cases a <;> rfl
  case demand a | claimants a | tolerance a => cases a <;> rfl
  all_goals rfl

theorem Says.writtenAt_index (q : Params) (p : Param) (v : Nat) : writtenAt q p.index v = q.write p v := by
  cases p
  case demand a | urgentOk a | claimants a | tolerance a => cases a <;> rfl
  all_goals rfl

theorem Says.paramRow_none {n : Nat} (hn : 36 ≤ n) : paramRow n = none := by
  unfold paramRow
  iterate 5 rw [if_neg (by omega)]
  split <;> first | omega | rfl

theorem Says.valueAt_none (s : State) {n : Nat} (hn : 36 ≤ n) : valueAt s n = 0#32 := by
  unfold valueAt
  split <;> first | omega | rfl

/-! ### PARAM_GET and PARAM_SET -/

/-- The data of both requests: the index and the value it holds, 0 where it holds none (R153, R154; log 18). -/
theorem Hub.paramData_eq (s : State) (i : Byte) : s.hub.paramData i = i :: u32 (valueAt s i.toNat) := by
  unfold Hub.paramData
  cases hp : Param.ofIndex i.toNat with
  | none => rw [valueAt_none s (Param.le_of_ofIndex_none hp)]
  | some p => rw [← Param.index_of_ofIndex hp, valueAt_index]

/-- A parameter that has a writer holds the value just written, when that value is in its range (R154). -/
theorem Hub.paramValue_write (h : Hub) {p : Param} {r : Role} {v : Half} (hr : p.access r ≠ .readOnly)
    (hv : p.inRange v.toNat = true) :
    ({ h with params := h.params.write p v.toNat } : Hub).paramValue p = v.setWidth 32 := by
  have number : BitVec.ofNat 32 v.toNat = v.setWidth 32 := BitVec.ofNat_toNat ..
  obtain ⟨-, top⟩ := of_decide_eq_true hv
  cases p
  case urgentOk a =>
    have bit : (if v.toNat = 1 then 1 else 0) = v.toNat := by
      simp only [Param.range] at top
      split <;> omega
    simp [Hub.paramValue, Params.write, bit]
  case claimants a =>
    have bits : v.toNat < 2 ^ 3 := Nat.lt_succ_of_le top
    simp only [Hub.paramValue, Params.write, PerAxis.get_set_self]
    refine BitVec.eq_of_toNat_eq ?_
    rw [BitVec.toNat_setWidth, BitVec.toNat_setWidth, BitVec.toNat_ofNat, Nat.mod_eq_of_lt bits]
  case demand a | tolerance a => simpa only [Hub.paramValue, Params.write, PerAxis.get_set_self] using number
  case fieldClock | nextBale => exact absurd rfl hr
  all_goals exact number

theorem paramGetIsTaken_holds : paramGetIsTaken := fun s r i =>
  item_of_answer (f := paramGetItem r i) (by rw [paramGetItem, Hub.paramData_eq])

/-- PARAM_SET of an index that holds no parameter (R154; log 18). -/
theorem paramSetItem_of_none {i : Byte} (hi : Param.ofIndex i.toNat = none) (r : Role) (v : Half) (s : State) :
    paramSetItem r i v s.hub = (s.hub, ⟨.ok, i :: u32 0#32⟩) := by
  have value := valueAt_none s (Param.le_of_ofIndex_none hi)
  simp only [paramSetItem, hi, Hub.paramData_eq, value]

/-- PARAM_SET of a parameter: its writers, its mode and its range, in this order, and else the write (R154). -/
theorem paramSetItem_of_some {i : Byte} {p : Param} (hi : Param.ofIndex i.toNat = some p) (r : Role) (v : Half) (s : State) :
    paramSetItem r i v s.hub =
      if r ∉ p.row.writers then (s.hub, .bare .notAllowed)
      else if p.row.setupOnly = true ∧ s.hub.control.mode ≠ .setup then
        (s.hub, ⟨.wrongMode, i :: u32 (valueAt s i.toNat)⟩)
      else if v.toNat < p.row.least ∨ p.row.greatest < v.toNat then (s.hub, .bare .badValue)
      else ({ s.hub with params := s.hub.params.write p v.toNat }, ⟨.ok, i :: u32 (v.setWidth 32)⟩) := by
  have range : v.toNat < p.row.least ∨ p.row.greatest < v.toNat ↔ ¬ p.inRange v.toNat = true := by
    simp only [Param.inRange, decide_eq_true_iff, Param.row]
    omega
  simp only [paramSetItem, hi, Hub.paramData_eq]
  by_cases hr : p.access r = .readOnly
  · have refused : r ∉ p.row.writers := fun hw => (p.mem_writers r).mp hw hr
    rw [if_pos hr, if_pos refused]
  · have admitted : r ∈ p.row.writers := (p.mem_writers r).mpr hr
    rw [if_neg hr, if_neg (not_not_intro admitted)]
    simp only [Param.setupOnly_iff hr]
    by_cases hv : p.inRange v.toNat = true
    · have written := Hub.paramValue_write s.hub hr hv
      have inside : ¬ (v.toNat < p.row.least ∨ p.row.greatest < v.toNat) := fun ho => range.mp ho hv
      rw [if_neg inside]
      simp only [hv, Bool.not_true, Bool.false_eq_true, if_false, Hub.paramData, hi, written]
    · have outside : v.toNat < p.row.least ∨ p.row.greatest < v.toNat := range.mpr hv
      rw [if_pos outside]
      simp only [hv, Bool.not_false, if_true]

theorem paramSetIsTaken_holds : paramSetIsTaken := by
  intro s r i v
  have taken : exec (.paramSet r i v) s = s.item 0x32#8 (paramSetItem r i v) := rfl
  rw [taken]
  cases hi : Param.ofIndex i.toNat with
  | none =>
    rw [paramRow_none (Param.le_of_ofIndex_none hi)]
    exact item_of_answer (paramSetItem_of_none hi r v s)
  | some p =>
    have item := paramSetItem_of_some hi r v s
    rw [← Param.index_of_ofIndex hi, paramRow_index, writtenAt_index]
    rw [← Param.index_of_ofIndex hi] at item
    rw [State.item_eq, item]
    dsimp only
    repeat' split
    all_goals rfl

/-- Settles O43: the parameter at an index is described by one row, which is the statement's. -/
theorem parametersAreReadAndSet : Obligations.ParametersAreReadAndSet := ⟨paramGetIsTaken_holds, paramSetIsTaken_holds⟩

end Sys2Proof.Machine

namespace Sys2Proof.Machine

open Says

/-! ### CLEAR_STOP and RESTART -/

/-- Settles O46: the checks of CLEAR_STOP in their order. -/
theorem clearStopIsTaken : Obligations.ClearStopIsTaken := by
  intro s r
  have taken : exec (.clearStop r) s = s.item 0x42#8 (clearStopItem r) := rfl
  dsimp only
  rw [taken]
  by_cases hr : r ≠ .ct
  · rw [if_pos hr]
    exact item_of_answer (by rw [clearStopItem, if_pos hr]; rfl)
  rw [if_neg hr]
  by_cases hp : s.hub.control.restartPending = true
  · rw [if_pos (.inl hp)]
    exact item_of_answer (by rw [clearStopItem, if_neg hr, if_pos hp]; rfl)
  by_cases hm : s.hub.control.mode = .stopped
  · by_cases hi : s.hub.inputs.stop = true
    · rw [if_pos (.inr ⟨hm, hi⟩)]
      exact item_of_answer (by rw [clearStopItem, if_neg hr, if_neg hp, if_neg (not_not_intro hm), if_pos hi]; rfl)
    · rw [if_neg (by simp [hp, hi]), if_pos hm]
      have level : bool8 s.hub.inputs.stop = [0#8] := by simp [hi, bool8, u8]
      refine item_of_answer ?_
      rw [clearStopItem, if_neg hr, if_neg hp, if_neg (not_not_intro hm), if_neg hi, Hub.clearAnswer, level]
      rfl
  · rw [if_neg (by simp [hp, hm]), if_neg hm]
    exact item_of_answer (by rw [clearStopItem, if_neg hr, if_neg hp, if_pos hm]; rfl)

theorem restartIsTaken_holds : restartIsTaken := by
  intro s r
  have taken : exec (.restart r) s = s.item 0x43#8 (restartItem r) := rfl
  rw [taken, State.item_eq, restartItem]
  repeat' split
  all_goals rfl

/-! ### The effect of a restart -/

/-- The port that a restart leaves: a frame in assembly is dropped, whatever else the port holds is kept (R177). -/
theorem Port.restarted_eq (p : Port) :
    p.restarted = { p with receiver := match p.receiver with | .collecting _ _ => .waitMark | x => x } := by
  obtain ⟨receiver, -, -⟩ := p
  cases receiver <;> rfl

/-- The end of port C's reply, and the restart with it, is one update of the part (R164, R177). -/
theorem Says.restarted_endReply (h : Hub) : (h.endReply .ct).restarted = restartedHub h := by
  simp only [Hub.restarted, Port.restarted_eq]
  rfl

theorem restartTakesEffect_holds : restartTakesEffect := by
  intro s hp hs
  have taken : exec (.replySent .ct) s = took s (s.hub.replySent .ct) := rfl
  obtain ⟨reply, sending⟩ := Option.ne_none_iff_exists'.mp hs
  have effect : s.hub.replySent .ct = ((s.hub.endReply .ct).restarted).handOver := by
    have transmits : (s.hub.ports.get .ct).sending = some reply := sending
    rw [Hub.replySent, transmits]
    exact congrArg Hub.handOver (if_pos ⟨rfl, hp⟩)
  rw [taken, effect, restarted_endReply]

/-- The handler has a frame of port C in hand: one handed over, or one whose items are being taken (R171). -/
theorem Handler.busyWithCt_iff (x : Handler) :
    x.busyWithCt = true ↔ (∃ f, x = .handed .ct f) ∨ ∃ items built refused, x = .taking .ct items built refused := by
  cases x with
  | free => simp [Handler.busyWithCt]
  | handed r f => cases r <;> simp [Handler.busyWithCt]
  | taking r items built refused => cases r <;> simp [Handler.busyWithCt]

theorem restartEffectIsTaken_holds : restartEffectIsTaken := by
  intro s inHand
  have taken : exec .restartEffect s = took s s.hub.restartEffect := rfl
  have busy : s.hub.handler.busyWithCt = true ↔ inHand := Handler.busyWithCt_iff _
  rw [taken, Hub.restartEffect, restarted_endReply]
  refine ⟨fun hp hn => ?_, fun hn => ?_⟩
  · rw [if_pos (by simp [hp, mt busy.mp hn])]
  · rw [if_neg]
    rcases hn with hp | hn
    · simp [hp]
    · simp [busy.mpr hn]

/-- Settles O47: RESTART by its checks, and its effect as one update of the part before the hand-over. -/
theorem restartIsTakenAndTakesEffect : Obligations.RestartIsTakenAndTakesEffect :=
  ⟨restartIsTaken_holds, restartTakesEffect_holds, restartEffectIsTaken_holds⟩

end Sys2Proof.Machine

namespace Sys2Proof.Machine

open Says

/-! ### The claims dropped on leaving RUN -/

theorem Hub.keepsPosted_dropClaim {h : Hub} (a : Axis) (c : EndCause) : h.KeepsPosted (h.dropClaim a c) :=
  (Hub.keepsPosted_postTo _ _).trans (Hub.keepsPosted_of_notices (Hub.dropClaim_notices ..))

/-- Whoever has the notice of a dropped claim: its former holder and CT (R143). -/
theorem Hub.posted_dropClaim (h : Hub) (a : Axis) (c : EndCause) {r : Role} (hr : r ∈ (h.record a).holder.toList ++ [.ct]) :
    posted (h.dropClaim a c) (.axis a) r := by
  simp only [posted, Hub.dropClaim_notices]
  exact posted_of_mem h (.axis a) hr

/-- An axis on the way through the drop of all claims: still as it was, or dropped and its notice posted. -/
def Hub.StandsOrDropped (h k : Hub) (a : Axis) : Prop :=
  k.record a = h.record a ∨
    (h.record a).state ≠ .idle ∧ k.record a = (h.dropClaim a .mode).record a ∧
      ∀ r, r ∈ (h.record a).holder.toList ++ [.ct] → posted k (.axis a) r

theorem Hub.standsOrDropped_dropAllClaims (h : Hub) (a : Axis) : h.StandsOrDropped h.dropAllClaims a := by
  refine Hub.dropAllClaims_induction (h.StandsOrDropped · a) (fun k b hk hb => ?_) h (.inl rfl)
  by_cases ha : a = b
  · subst ha
    rcases hk with same | ⟨-, gone, -⟩
    · refine .inr ⟨same ▸ hb, ?_, fun r hr => k.posted_dropClaim a .mode (same ▸ hr)⟩
      simp only [Hub.record_dropClaim, if_true, same]
    · exact absurd (by rw [gone, Hub.record_dropClaim, if_pos rfl]) hb
  · have kept : (k.dropClaim b .mode).record a = k.record a := by rw [Hub.record_dropClaim, if_neg ha]
    unfold Hub.StandsOrDropped
    rw [kept]
    exact hk.imp_right fun ⟨held, gone, notice⟩ =>
      ⟨held, gone, fun r hr => Hub.keepsPosted_dropClaim b .mode _ r (notice r hr)⟩

/-- The drop of all claims leaves an IDLE axis as it was (R58). -/
theorem Hub.record_dropAllClaims_of_idle (h : Hub) {a : Axis} (ha : (h.record a).state = .idle) :
    h.dropAllClaims.record a = h.record a :=
  (h.standsOrDropped_dropAllClaims a).resolve_right fun ⟨held, _⟩ => held ha

/-- The drop of all claims drops a claim that is held, with its notice posted (R58, R143). -/
theorem Hub.dropAllClaims_of_held (h : Hub) {a : Axis} (ha : (h.record a).state ≠ .idle) :
    h.dropAllClaims.record a = (h.dropClaim a .mode).record a ∧
      ∀ r, r ∈ (h.record a).holder.toList ++ [.ct] → posted h.dropAllClaims (.axis a) r := by
  rcases h.standsOrDropped_dropAllClaims a with same | ⟨-, gone⟩
  · exact absurd (same ▸ h.dropAllClaims_idle a) ha
  · exact gone

/-- The part `k` is what leaving RUN makes of `s`: every claim dropped with cause MODE, the flow pool and the outputs at rest, the
notices posted, and the tracker, the counter, the map and the parameters kept (R58, R96, R159). -/
structure Says.ClaimsDropped (s : State) (k : Hub) : Prop where
  record : ∀ a, k.record a = if (s.hub.record a).state = .idle then s.hub.record a else dropped (s.hub.record a) .mode
  valves : ∀ a, k.claims.valves.get a = .off
  arbiter : k.arbiter = ⟨0, [], []⟩
  notices : ∀ a q, (s.hub.record a).holder = some q → posted k (.axis a) q ∧ posted k (.axis a) .ct
  tracker : k.tracker = s.hub.tracker
  counter : k.counter = s.hub.counter
  map : k.map = s.hub.map
  params : k.params = s.hub.params

/-- After the drop no axis is in flight, so that the agreement of claim table, arbiter and valves leaves the flow pool empty and
the outputs off (R58, R96). -/
theorem Says.claimsDropped_dropAllClaims (s : State) (hs : sound s) : ClaimsDropped s s.hub.dropAllClaims := by
  obtain ⟨hm, hv⟩ := hs
  have none_inFlight (a : Axis) : ¬ inFlight (s.hub.dropAllClaims.record a) := by
    simp [inFlight, s.hub.dropAllClaims_idle a]
  obtain ⟨arbiter, valves⟩ := Hub.rests_of_none_inFlight (motionAgrees_motionInvariant.dropAllClaims hm)
    (valvesAgree_motionInvariant.dropAllClaims hv) none_inFlight
  refine ⟨fun a => ?_, valves, arbiter, fun a q hq => ?_, by simp, by simp, by simp, by simp⟩
  · split
    · exact s.hub.record_dropAllClaims_of_idle ‹_›
    · obtain ⟨gone, -⟩ := s.hub.dropAllClaims_of_held ‹_›
      rw [gone, s.hub.dropClaim_eq a .mode hm hv, endedHub_record, if_pos rfl]
      rfl
  · have held : (s.hub.record a).state ≠ .idle := fun e => by
      have none := (hm.record a).held.mp e
      rw [hq] at none
      exact nomatch none
    obtain ⟨-, notice⟩ := s.hub.dropAllClaims_of_held held
    exact ⟨notice q (by simp [hq]), notice .ct (by simp)⟩

/-- The mode, the stop latch, the inputs, a reply entry and further notices are no part of what the drop makes. -/
theorem Says.ClaimsDropped.of_blocks {s : State} {k l : Hub} (hk : ClaimsDropped s k) (post : k.KeepsPosted l)
    (claims : l.claims = k.claims) (arbiter : l.arbiter = k.arbiter) (tracker : l.tracker = k.tracker)
    (counter : l.counter = k.counter) (map : l.map = k.map) (params : l.params = k.params) : ClaimsDropped s l where
  record a := by rw [Hub.record, claims]; exact hk.record a
  valves a := by rw [claims]; exact hk.valves a
  arbiter := arbiter.trans hk.arbiter
  notices a q hq := (hk.notices a q hq).imp (post _ _) (post _ _)
  tracker := tracker.trans hk.tracker
  counter := counter.trans hk.counter
  map := map.trans hk.map
  params := params.trans hk.params

/-! ### The two ways out of RUN -/

/-- MODE_SET SETUP in RUN with no restart pending drops the claims (R159). -/
theorem modeSetItem_setup_of_run {h : Hub} (hp : h.control.restartPending = false) (hm : h.control.mode = .run) :
    modeSetItem .ct 0#8 h = (h.dropAllClaims.setMode .setup, ⟨.ok, [0#8]⟩) := by
  have setup : argMode 0#8 = some .setup := rfl
  rw [modeSetItem, if_neg (not_not_intro rfl), setup]
  dsimp only
  rw [if_neg (by simp [hp]), hm]
  rfl

/-- The part right after the stop input has become active, from the part `k` whose claims are dropped where the mode was RUN: the
latch set, STOPPED, STOP_LATCHED posted to all (R160). -/
def Hub.stopLatched (k : Hub) : Hub :=
  { k with control := { k.control with mode := .stopped, stopLatch := true } }.postAll .stopLatched

theorem Hub.stopInputActive_eq (h : Hub) :
    h.stopInputActive =
      if h.control.mode = Mode.run then ({ h with inputs := { h.inputs with stop := true } } : Hub).dropAllClaims.stopLatched
      else ({ h with inputs := { h.inputs with stop := true } } : Hub).stopLatched := apply_ite Hub.stopLatched ..

theorem Says.ClaimsDropped.answered {s : State} {k : Hub} (hk : ClaimsDropped s k) (m : Mode) (entry : Option Entry) :
    ClaimsDropped s { k.setMode m with lastEntry := entry } :=
  hk.of_blocks (Hub.keepsPosted_of_notices rfl) rfl rfl rfl rfl rfl rfl

theorem Says.ClaimsDropped.with_control {s : State} {k : Hub} (hk : ClaimsDropped s k) (x : ModeControl) :
    ClaimsDropped s { k with control := x } :=
  hk.of_blocks (Hub.keepsPosted_of_notices rfl) rfl rfl rfl rfl rfl rfl

theorem Says.ClaimsDropped.postTo {s : State} {k : Hub} (hk : ClaimsDropped s k) (n : Notice) (l : List Role) :
    ClaimsDropped s (k.postTo n l) :=
  hk.of_blocks (Hub.keepsPosted_postTo n l) (k.postTo_claims n l) (k.postTo_arbiter n l) (k.postTo_tracker n l)
    (k.postTo_counter n l) (k.postTo_map n l) (k.postTo_params n l)

theorem Says.ClaimsDropped.stopLatched {s : State} {k : Hub} (hk : ClaimsDropped s k) : ClaimsDropped s k.stopLatched :=
  (hk.with_control _).postTo _ _

/-- The drop reads no input level. -/
theorem Says.ClaimsDropped.of_inputs {s : State} {k : Hub} (x : Levels)
    (hk : ClaimsDropped { s with hub := { s.hub with inputs := x } } k) : ClaimsDropped s k :=
  ⟨hk.record, hk.valves, hk.arbiter, hk.notices, hk.tracker, hk.counter, hk.map, hk.params⟩

theorem Says.modeSet_setup_leaves_run (s : State) (hs : sound s) (hm : s.hub.control.mode = .run)
    (hp : s.hub.control.restartPending = false) :
    ∃ t, exec (.modeSet .ct 0#8) s = .next t ∧ ClaimsDropped s t.hub ∧
      t.hub.control = { s.hub.control with mode := .setup } ∧ t.hub.lastEntry = some ⟨0x41#8, ⟨.ok, [0#8]⟩⟩ := by
  have taken : exec (.modeSet .ct 0#8) s = s.item 0x41#8 (modeSetItem .ct 0#8) := rfl
  have gone := claimsDropped_dropAllClaims s hs
  have control := s.hub.dropAllClaims_control
  have item := modeSetItem_setup_of_run hp hm
  generalize s.hub.dropAllClaims = k at gone control item
  exact ⟨_, taken.trans (item_of_answer item), gone.answered .setup _, by rw [← control]; rfl, rfl⟩

theorem Says.stopInputActive_leaves_run (s : State) (hs : sound s) (hm : s.hub.control.mode = .run) :
    ∃ t, exec .stopInputActive s = .next t ∧ ClaimsDropped s t.hub ∧
      t.hub.control = { s.hub.control with mode := .stopped, stopLatch := true } ∧
      t.hub.inputs = { s.hub.inputs with stop := true } ∧ ∀ q, pendingFor t .stopLatched q := by
  have taken : exec .stopInputActive s = took s s.hub.stopInputActive := rfl
  have gone := claimsDropped_dropAllClaims { s with hub := { s.hub with inputs := { s.hub.inputs with stop := true } } } hs
  have control := Hub.dropAllClaims_control { s.hub with inputs := { s.hub.inputs with stop := true } }
  have inputs := Hub.dropAllClaims_inputs { s.hub with inputs := { s.hub.inputs with stop := true } }
  rw [Hub.stopInputActive_eq, if_pos hm] at taken
  generalize Hub.dropAllClaims { s.hub with inputs := { s.hub.inputs with stop := true } } = k at gone control inputs taken
  refine ⟨_, taken, gone.of_inputs.stopLatched, ?_, (Hub.postTo_inputs ..).trans inputs, posted_postAll _ _⟩
  rw [Hub.stopLatched, Hub.postAll, Hub.postTo_control, control]

theorem leavingRunDropsTheClaims_holds : leavingRunDropsTheClaims := by
  intro s hs hm dropAll
  have every (t : State) (ht : ClaimsDropped s t.hub) : dropAll t :=
    ⟨ht.record, ht.valves, ht.arbiter, ht.notices, ht.tracker, ht.counter, ht.map, ht.params⟩
  refine ⟨fun hp => ?_, ?_⟩
  · obtain ⟨t, taken, gone, rest⟩ := modeSet_setup_leaves_run s hs hm hp
    exact ⟨t, taken, every t gone, rest⟩
  · obtain ⟨t, taken, gone, rest⟩ := stopInputActive_leaves_run s hs hm
    exact ⟨t, taken, every t gone, rest⟩

theorem stopInputEdges_holds : stopInputEdges := by
  refine fun s => ⟨fun hm => ?_, rfl⟩
  have taken : exec .stopInputActive s = took s s.hub.stopInputActive := rfl
  rw [taken, Hub.stopInputActive_eq, if_neg hm]
  rfl

/-- Settles O45: what the drop of all claims makes of the part, said once for both ways out of RUN, and the stop input outside
RUN. -/
theorem stopChainIsTaken : Obligations.StopChainIsTaken := ⟨leavingRunDropsTheClaims_holds, stopInputEdges_holds⟩

end Sys2Proof.Machine

namespace Sys2Proof.Machine

/-! ### The commands that leave the parameters alone

Only PARAM_SET and power-on write parameters. Of the commands that act on the bale records, those are gone through here; the others
leave the parameters by `BaleInvariant`. -/

/-! #### Events -/

section
variable (h : Hub)

theorem Hub.lateCheck_params : h.lateCheck.params = h.params := by
  have e := congrArg Hub.params h.lateCheck_frame; exact e

theorem Hub.stopwatchTick_params : h.stopwatchTick.params = h.params := by
  have e := congrArg Hub.params h.stopwatchTick_frame; exact e

theorem Hub.tick_params : h.tick.params = h.params := Hub.stopwatchTick_params _

theorem Hub.startStopwatch_params : h.startStopwatch.params = h.params := by
  unfold Hub.startStopwatch
  repeat' split
  · exact Hub.lateCheck_params _
  all_goals rfl

theorem Hub.revolution_params : h.revolution.params = h.params := by
  unfold Hub.revolution
  dsimp only
  repeat' split
  · exact Hub.filmTargetReached_params ..
  all_goals rfl

theorem Hub.ringCount_params : h.ringCount.params = h.params := by
  unfold Hub.ringCount
  repeat' split
  · rfl
  · rfl
  · exact Hub.revolution_params _

theorem Hub.ringIndexCount_params : h.ringIndexCount.params = h.params := by
  unfold Hub.ringIndexCount
  dsimp only
  split
  · exact Hub.revolution_params _
  · rfl

theorem Hub.filmBreakEdge_params (d : Dispenser) (active : Bool) : (h.filmBreakEdge d active).params = h.params := by
  cases active with
  | false => exact h.setBreakInput_params d false
  | true =>
    cases hd : h.counter.dispenser d with
    | broken => rw [h.filmBreakEdge_of_broken hd]; exact h.setBreakInput_params d true
    | ready =>
      exact Hub.filmBreakEdge_induction (fun k => k.params = h.params) (fun k hk => by simpa using hk) h hd
        (h.brokenAt_params d)

theorem Hub.netPulse_params : h.netPulse.params = h.params := by
  unfold Hub.netPulse
  dsimp only
  repeat' split
  · exact Hub.netTargetReached_params ..
  all_goals rfl

theorem Hub.netFault_params (mark : BaleFlags → BaleFlags) : (h.netFault mark).params = h.params := Hub.postTo_params ..

theorem Hub.netStartTimeout_params : h.netStartTimeout.params = h.params := by
  unfold Hub.netStartTimeout
  split
  · exact Hub.netFault_params _ _
  · rfl

theorem Hub.netGapTimeout_params : h.netGapTimeout.params = h.params := by
  unfold Hub.netGapTimeout
  split
  · exact Hub.netFault_params _ _
  · rfl

theorem Hub.cradleLoadActive_params : h.cradleLoadActive.params = h.params := by
  unfold Hub.cradleLoadActive
  dsimp only
  repeat' split
  · rw [Hub.evalFeedHold_params, Hub.startStopwatch_params]; exact Hub.postTo_params ..
  all_goals exact Hub.postTo_params ..

theorem Hub.cradleLoadInactive_params : h.cradleLoadInactive.params = h.params := by
  unfold Hub.cradleLoadInactive
  dsimp only
  split <;> rfl

theorem Hub.tableLoadActive_params : h.tableLoadActive.params = h.params := by
  unfold Hub.tableLoadActive
  dsimp only
  repeat' split
  all_goals exact Hub.postTo_params ..

theorem Hub.stopRingUnplanned_params : h.stopRingUnplanned.params = h.params := by
  unfold Hub.stopRingUnplanned
  split <;> simp

theorem Hub.tableLoadInactive_params : h.tableLoadInactive.params = h.params := by
  unfold Hub.tableLoadInactive
  dsimp only
  repeat' split
  case h_1 => exact Hub.logBale_params ..
  case h_2 | h_3 | h_4 =>
    rw [Hub.stopRingUnplanned_params]
    exact (Hub.postTo_params ..).trans (Hub.logBale_params ..)
  all_goals rfl

theorem Hub.transitTimeout_params : h.transitTimeout.params = h.params := by
  unfold Hub.transitTimeout
  dsimp only
  repeat' split
  · exact (Hub.postTo_params ..).trans (Hub.logBale_params ..)
  all_goals rfl

theorem Hub.tableLate_params : h.tableLate.params = h.params := by
  unfold Hub.tableLate
  split
  · exact Hub.lateCheck_params _
  · rfl

/-! #### Items -/

variable (r : Role)

theorem baleStartItem_params : (baleStartItem r h).1.params = h.params := by
  unfold baleStartItem
  repeat' split
  · rfl
  · rfl
  · exact Hub.createBale_params ..

theorem bindStartItem_params : (bindStartItem r h).1.params = h.params := by
  have binding (b : Bale) : (h.startBinding b).params = h.params := by
    rw [Hub.startBinding, Hub.evalFeedHold_params]
    exact h.advance_params .chamber { b with net := some ⟨h.params.netTarget, 0⟩ } .binding
  unfold bindStartItem
  repeat' split
  case h_1.isTrue => exact binding _
  all_goals rfl

theorem wrapStartItem_params : (wrapStartItem r h).1.params = h.params := by
  unfold wrapStartItem
  repeat' split
  case h_1.isTrue => exact Hub.advance_params ..
  all_goals rfl

theorem baleNoteItem_params (v : Half) : (baleNoteItem r v h).1.params = h.params := by
  unfold baleNoteItem
  dsimp only
  repeat' split
  all_goals rfl

theorem Hub.declareBale_params (p : Place) (g : Stage) : (h.declareBale p g).params = h.params := by
  cases p <;> simp [Hub.declareBale, Hub.startStopwatch_params]

theorem baleDeclareItem_params (p g : Byte) : (baleDeclareItem r p g h).1.params = h.params := by
  unfold baleDeclareItem
  repeat' split
  case h_1.isFalse.isFalse => exact Hub.declareBale_params ..
  all_goals rfl

theorem logDropItem_params (n : Byte) : (logDropItem r n h).1.params = h.params := by
  unfold logDropItem
  dsimp only
  repeat' split
  all_goals rfl

end

/-! ### Every step keeps the parameters in their ranges -/

section
variable {h k : Hub}

namespace Hub.paramsAgree

theorem of_params (hp : h.paramsAgree) (e : k.params = h.params) : k.paramsAgree := by
  unfold Hub.paramsAgree
  rw [e]
  exact hp

/-- A value in its range may be written (R154). -/
theorem write (hp : h.paramsAgree) {p : Param} {v : Nat} (hv : p.inRange v = true) :
    ({ h with params := h.params.write p v } : Hub).paramsAgree := by
  have range : p.range.1 ≤ v ∧ v ≤ p.range.2 := of_decide_eq_true hv
  have written {x : PerAxis Nat} {top : Nat} (hx : ∀ b, x.get b ≤ top) (hv : v ≤ top) (a b : Axis) : (x.set a v).get b ≤ top := by
    rw [PerAxis.get_set]
    split
    · exact hv
    · exact hx b
  obtain ⟨budget, axes, park, slope, lease, wait, net, start, gap, film, late⟩ := hp
  have demand (b : Axis) := (axes b).1
  have tolerance (b : Axis) := (axes b).2
  cases p
  case flowBudget => exact ⟨range.2, axes, park, slope, lease, wait, net, start, gap, film, late⟩
  case demand a =>
    exact ⟨budget, fun b => ⟨written demand range.2 a b, tolerance b⟩, park, slope, lease, wait, net, start, gap, film, late⟩
  case tolerance a =>
    exact ⟨budget, fun b => ⟨demand b, written tolerance range.2 a b⟩, park, slope, lease, wait, net, start, gap, film, late⟩
  case ringPark => exact ⟨budget, axes, range.2, slope, lease, wait, net, start, gap, film, late⟩
  case slopeLimit => exact ⟨budget, axes, park, range.2, lease, wait, net, start, gap, film, late⟩
  case claimLease => exact ⟨budget, axes, park, slope, range, wait, net, start, gap, film, late⟩
  case waitLimit => exact ⟨budget, axes, park, slope, lease, range, net, start, gap, film, late⟩
  case netTarget => exact ⟨budget, axes, park, slope, lease, wait, range, start, gap, film, late⟩
  case netStartLimit => exact ⟨budget, axes, park, slope, lease, wait, net, range, gap, film, late⟩
  case netGapLimit => exact ⟨budget, axes, park, slope, lease, wait, net, start, range, film, late⟩
  case filmTarget => exact ⟨budget, axes, park, slope, lease, wait, net, start, gap, range, late⟩
  case tableLateLimit => exact ⟨budget, axes, park, slope, lease, wait, net, start, gap, film, range⟩
  case urgentOk | claimants | fieldClock | nextBale =>
    exact ⟨budget, axes, park, slope, lease, wait, net, start, gap, film, late⟩

/-- PARAM_SET writes a value in its range or none (R154). -/
theorem paramSetItem (hp : h.paramsAgree) (r : Role) (i : Byte) (v : Half) : (paramSetItem r i v h).1.paramsAgree := by
  unfold Machine.paramSetItem
  split
  · exact hp
  · split
    · exact hp
    · split
      · exact hp
      · split
        · exact hp
        · rename_i hv
          exact hp.write (by simpa using hv)

/-- Power-on leaves every parameter at its reset value (R151, R186). -/
theorem powerOn (levels : Levels) : (powerOnHub levels).paramsAgree := by
  obtain ⟨-, -, -, -, -, -, -, -, -, -, -, -, reset, -⟩ := resetIsSound
  refine of_params reset ?_
  unfold powerOnHub
  dsimp only
  split
  · exact Hub.postTo_params ..
  · rfl

end Hub.paramsAgree
end

theorem paramsAgree_baleInvariant : BaleInvariant Hub.paramsAgree where
  same hp e := hp.of_params (Hub.balePart_params e)
  reportGrant h a d hp := hp.of_params (h.reportGrant_params a d)

/-- Of the items that act on the bale records or the parameters, PARAM_SET keeps the ranges and the others the parameters. -/
theorem item_keeps_paramsAgree (i : Instr) (code : Byte) (f : Hub → Hub × Answer) (h : Hub)
    (hi : itemOf i = some (code, f)) (hw : writesBales i = true) (hp : h.paramsAgree) : (f h).1.paramsAgree := by
  cases i <;> simp only [itemOf, Option.some.injEq, Prod.mk.injEq, reduceCtorEq] at hi <;> obtain ⟨-, rfl⟩ := hi
  case baleStart => exact hp.of_params (baleStartItem_params ..)
  case bindStart => exact hp.of_params (bindStartItem_params ..)
  case wrapStart => exact hp.of_params (wrapStartItem_params ..)
  case baleNote => exact hp.of_params (baleNoteItem_params ..)
  case baleDeclare => exact hp.of_params (baleDeclareItem_params ..)
  case logDrop => exact hp.of_params (logDropItem_params ..)
  case paramSet => exact hp.paramSetItem _ _ _
  all_goals exact nomatch hw

/-- Of the events that act on the bale records, power-on resets the parameters and the others leave them. -/
theorem event_keeps_paramsAgree (c : Instr) (f : Hub → Hub) (h : Hub) (hf : eventOf c = some f)
    (hw : writesBales c = true) (hp : h.paramsAgree) : (f h).paramsAgree := by
  cases c <;> simp only [eventOf, Option.some.injEq, reduceCtorEq] at hf <;> subst hf
  case powerOn => exact Hub.paramsAgree.powerOn _
  case ringCount => exact hp.of_params h.ringCount_params
  case ringIndexCount => exact hp.of_params h.ringIndexCount_params
  case filmBreakEdge => exact hp.of_params (h.filmBreakEdge_params _ _)
  case netPulse => exact hp.of_params h.netPulse_params
  case netStartTimeout => exact hp.of_params h.netStartTimeout_params
  case netGapTimeout => exact hp.of_params h.netGapTimeout_params
  case cradleLoadActive => exact hp.of_params h.cradleLoadActive_params
  case cradleLoadInactive => exact hp.of_params h.cradleLoadInactive_params
  case tableLoadActive => exact hp.of_params h.tableLoadActive_params
  case tableLoadInactive => exact hp.of_params h.tableLoadInactive_params
  case transitTimeout => exact hp.of_params h.transitTimeout_params
  case tableLate => exact hp.of_params h.tableLate_params
  case prechamberFullEdge => exact hp.of_params (Hub.evalFeedHold_params _)
  all_goals exact nomatch hw

/-- Settles O60: PARAM_SET writes within the ranges, power-on resets, and no other command writes a parameter. -/
theorem stepKeepsTheParameters : Obligations.StepKeepsTheParameters := fun _ _ hp ht =>
  paramsAgree_baleInvariant.step hp ht item_keeps_paramsAgree event_keeps_paramsAgree (fun _ hk => hk.of_params rfl)
    fun h hk => hk.of_params h.tick_params

end Sys2Proof.Machine

namespace Sys2Proof.Machine

/-! ## Station ports and frames

A character at a receiver and an item of a frame are each gone through once, as one equation per case of their meaning; the
statements read the command's case off these equations. -/

open Says

/-- Settles O3: every arm of `exec` changes the part alone. -/
theorem everyCommandIsTaken : Obligations.EveryCommandIsTaken := by
  intro c s
  obtain ⟨k, hk⟩ := exec_next c s
  exact ⟨_, hk, rfl, rfl⟩

/-! ### Replies -/

/-- The last character of a reply with no restart due: the port's transmission ends and a hand-over follows (R174, R175). -/
theorem Hub.replySent_of_sending {h : Hub} {r : Role} (hs : (h.ports.get r).sending ≠ none)
    (hn : ¬ (r = .ct ∧ h.control.restartPending = true)) : h.replySent r = (h.endReply r).handOver := by
  obtain ⟨reply, sending⟩ := Option.ne_none_iff_exists'.mp hs
  rw [Hub.replySent, sending]
  exact congrArg Hub.handOver (if_neg hn)

theorem Hub.replySent_of_idle {h : Hub} {r : Role} (hs : (h.ports.get r).sending = none) : h.replySent r = h := by
  rw [Hub.replySent, hs]

theorem repliesEnd_holds : repliesEnd := fun s _ =>
  ⟨fun hs => congrArg (took s) (Hub.replySent_of_idle hs), fun hs hn => congrArg (took s) (Hub.replySent_of_sending hs hn)⟩

theorem heldFramesAreHandedOver_holds : heldFramesAreHandedOver := fun h =>
  ⟨h.handOver_of_busy, h.handOver_of_pending, h.handOver_takes⟩

theorem repliesSumToFF_holds : repliesSumToFF := by
  intro es
  refine ⟨?_, _, _, rfl, rfl, fun c hc => ?_⟩
  · rw [replyFrame_data, charSum_concat, BitVec.add_comm, BitVec.sub_add_cancel]
  · obtain ⟨data, -, rfl⟩ := List.mem_map.mp hc
    rfl

theorem repliesHoldTheirEntries_holds : repliesHoldTheirEntries := fun es => ⟨_, replyFrame_data es⟩

/-- Settles O50: the end of a reply and the hand-over by their laws, the form of a reply by its characters. -/
theorem repliesAreSent : Obligations.RepliesAreSent :=
  ⟨repliesEnd_holds, heldFramesAreHandedOver_holds, repliesSumToFF_holds, repliesHoldTheirEntries_holds⟩

/-! ### Characters -/

/-- The receiver after a marked character, by the count it carries (R167). -/
theorem beginFrame_eq (data : Byte) :
    beginFrame data = if 2 ≤ data.toNat ∧ data.toNat ≤ 254 then .collecting data [] else .waitMark := by
  simp only [beginFrame, countLegal, decide_eq_true_eq]

/-- A complete frame in a port's receive buffer, behind the frames held before (R167, R171). -/
def Hub.holdFrame (h : Hub) (r : Role) (f : Frame) : Hub :=
  { h with
    ports := h.ports.set r { h.ports.get r with receiver := .holding f }, heldOrder := h.heldOrder ++ [r] }

section
variable {h : Hub} {r : Role} {n : Byte} {chars : List Byte}

/-- Waiting for a mark, a receiver takes a good marked character alone (R167, R176). -/
theorem Hub.receive_waiting (hw : (h.ports.get r).receiver = .waitMark) (data : Byte) (mark good : Bool) :
    h.receive r data mark good =
      if mark && good then h.setPort r { h.ports.get r with receiver := beginFrame data } else h := by
  simp only [Hub.receive, hw]
  cases mark <;> cases good <;> rfl

/-- Holding a frame, a receiver answers a good marked character with LINK_OVERRUN and drops every other (R168, R176). -/
theorem Hub.receive_holding {f : Frame} (hw : (h.ports.get r).receiver = .holding f) (data : Byte) (mark good : Bool) :
    h.receive r data mark good = if mark && good then h.post .linkOverrun r else h := by
  simp only [Hub.receive, hw]
  cases mark <;> cases good <;> rfl

/-- A framing fault drops the frame in assembly (R176). -/
theorem Hub.receive_fault (hw : (h.ports.get r).receiver = .collecting n chars) (data : Byte) (mark : Bool) :
    h.receive r data mark false = h.setPort r { h.ports.get r with receiver := .waitMark } := by
  simp only [Hub.receive, hw]

/-- A marked character begins a frame anew (R167). -/
theorem Hub.receive_mark (hw : (h.ports.get r).receiver = .collecting n chars) (data : Byte) :
    h.receive r data true true = h.setPort r { h.ports.get r with receiver := beginFrame data } := by
  simp only [Hub.receive, hw]

/-- An unmarked character short of the count is stored (R167). -/
theorem Hub.receive_stored (hw : (h.ports.get r).receiver = .collecting n chars) (data : Byte)
    (hn : chars.length + 1 ≠ n.toNat) :
    h.receive r data false true = h.setPort r { h.ports.get r with receiver := .collecting n (chars ++ [data]) } := by
  simp only [Hub.receive, hw]
  exact if_neg (by simpa using hn)

/-- The unmarked character that reaches the count completes the frame, and a hand-over follows (R167, R171). -/
theorem Hub.receive_completing (hw : (h.ports.get r).receiver = .collecting n chars) (data : Byte)
    (hn : chars.length + 1 = n.toNat) :
    h.receive r data false true = (h.holdFrame r ⟨n, chars ++ [data]⟩).handOver := by
  simp only [Hub.receive, hw]
  exact if_pos (by simpa using hn)

/-- The only frame held goes at once when the handler is free and its port is not reply-pending (R171, R175). -/
theorem Hub.handOver_holdFrame_alone (f : Frame) (hf : h.handler = .free) (hp : (h.ports.get r).replyPending = false)
    (ho : h.heldOrder = []) :
    (h.holdFrame r f).handOver = { h with
      ports := h.ports.set r { h.ports.get r with receiver := .waitMark, replyPending := true },
      handler := .handed r f } := by
  have alone : (h.holdFrame r f).heldOrder = [] ++ r :: [] := by simp [Hub.holdFrame, ho]
  rw [Hub.handOver_takes (h.holdFrame r f) [] [] r f hf alone (by simp) (by simpa [Hub.holdFrame] using hp)
    (by simp [Hub.holdFrame])]
  simp [Hub.holdFrame, ho]

/-- A frame waits while the handler is busy, or its port and every port with a frame are reply-pending (R171, R175). -/
theorem Hub.handOver_holdFrame_waits (f : Frame)
    (hw : h.handler ≠ .free ∨
      ((h.ports.get r).replyPending = true ∧ ∀ q, q ∈ h.heldOrder → (h.ports.get q).replyPending = true)) :
    (h.holdFrame r f).handOver = h.holdFrame r f := by
  rcases hw with busy | ⟨own, others⟩
  · exact Hub.handOver_of_busy _ busy
  · refine Hub.handOver_of_pending _ fun q hq => ?_
    simp only [Hub.holdFrame, PerRole.get_set]
    split
    · exact own
    · rename_i other
      exact others q (by simpa [Hub.holdFrame, other] using hq)

end

theorem charactersAreReceived_holds : charactersAreReceived := by
  intro s r data mark good
  have taken : exec (.characterReceive r data mark good) s = took s (s.hub.receive r data mark good) := rfl
  dsimp only
  rw [taken, ← beginFrame_eq]
  split
  case h_1 waiting =>
    rw [Hub.receive_waiting waiting, apply_ite (took s)]
    rfl
  case h_2 n chars collecting =>
    refine ⟨?_, ?_, ?_⟩
    · rintro rfl
      exact congrArg (took s) (Hub.receive_fault collecting data mark)
    · rintro rfl rfl
      exact congrArg (took s) (Hub.receive_mark collecting data)
    · rintro rfl rfl hn
      exact congrArg (took s) (Hub.receive_stored collecting data hn)
  case h_3 f holding => rw [Hub.receive_holding holding, apply_ite (took s)]

theorem completeFramesAreHandedOverOrHeld_holds : completeFramesAreHandedOverOrHeld := by
  intro s r data n chars collecting hn
  have taken : exec (.characterReceive r data false true) s =
      took s (s.hub.holdFrame r ⟨n, chars ++ [data]⟩).handOver :=
    congrArg (took s) (Hub.receive_completing collecting data hn)
  exact ⟨fun hf hp ho => taken.trans (congrArg (took s) (Hub.handOver_holdFrame_alone _ hf hp ho)),
    fun hw => taken.trans (congrArg (took s) (Hub.handOver_holdFrame_waits _ hw)), taken⟩

/-- Settles O48: each state of the receiver by its own law, the completed frame by the laws of the hand-over. -/
theorem charactersAreTaken : Obligations.CharactersAreTaken :=
  ⟨charactersAreReceived_holds, completeFramesAreHandedOverOrHeld_holds⟩

end Sys2Proof.Machine

namespace Sys2Proof.Machine

open Says

/-! ### The walk over the items of a frame -/

theorem exec_frameHandover (s : State) (r : Role) (n : Nat) :
    exec (.frameHandover r n) s = took s (s.hub.frameHandover r n) := rfl

section
variable {h : Hub} {r : Role} {items : List RawItem} {built : List Entry} {refused : Bool}

theorem Hub.takeItems_of_free (n : Nat) (q : Role) (hf : h.handler = .free) : Hub.takeItems n q h = h := by
  cases n with
  | zero => rfl
  | succ n => rw [Hub.takeItems, hf]

theorem Hub.takeItems_of_handed (n : Nat) (q : Role) {f : Frame} (hf : h.handler = .handed r f) :
    Hub.takeItems n q h = h := by
  cases n with
  | zero => rfl
  | succ n => rw [Hub.takeItems, hf]

/-- Several items of a frame are taken one after another (R171). -/
theorem Hub.takeItems_succ (n : Nat) (ht : h.handler = .taking r items built refused) :
    Hub.takeItems (n + 1) r h = Hub.takeItems n r (h.takeItem r) := by
  rw [Hub.takeItems, ht]
  exact if_pos rfl

theorem Hub.frameHandover_of_taking (n : Nat) (ht : h.handler = .taking r items built refused) :
    h.frameHandover r n = Hub.takeItems n r h := by
  rw [Hub.frameHandover, h.handOver_of_busy (by simp [ht]), ht]

theorem Hub.frameHandover_of_handed (n : Nat) {f : Frame} (hf : h.handler = .handed r f) :
    h.frameHandover r n = Hub.takeItems n r (h.beginTaking r f) := by
  rw [Hub.frameHandover, h.handOver_of_busy (by simp [hf]), hf]
  exact if_pos rfl

end

/-- A free handler is free after a hand-over or has been handed a frame; it takes no item yet (R171). -/
theorem Hub.handOver_handler_of_free (h : Hub) (hf : h.handler = .free) :
    h.handOver.handler = .free ∨ ∃ q f, h.handOver.handler = .handed q f := by
  unfold Hub.handOver
  split
  · split
    · exact .inr ⟨_, _, rfl⟩
    · exact .inl hf
  · exact .inl hf

/-- Once a frame is finished no item of it is left to be taken. -/
theorem Hub.takeItems_replyBegun (h : Hub) (n : Nat) (q r : Role) (es : List Entry) :
    Hub.takeItems n q (replyBegun h r es) = replyBegun h r es := by
  rcases Hub.handOver_handler_of_free { h with
    handler := .free, ports := h.ports.set r { h.ports.get r with sending := some (replyFrame es) } } rfl with
    free | ⟨p, f, handed⟩
  · exact Hub.takeItems_of_free n q free
  · exact Hub.takeItems_of_handed n q handed

/-! ### The start of a frame -/

section
variable {f : Frame}

/-- The sum check as the statements write it (R169). -/
theorem Frame.sumGood_iff : f.sumGood = true ↔ charSum (f.count :: f.chars) = 0xFF#8 := beq_iff_eq

theorem Hub.beginTaking_of_badSum (h : Hub) (r : Role) (hs : charSum (f.count :: f.chars) ≠ 0xFF#8) :
    h.beginTaking r f = replyBegun h r [⟨0x00#8, ⟨.checkError, []⟩⟩] := by
  rw [Hub.beginTaking, if_pos (by simp [mt Frame.sumGood_iff.mp hs])]
  rfl

theorem Hub.beginTaking_of_tooMany (h : Hub) (r : Role) (hs : charSum (f.count :: f.chars) = 0xFF#8)
    (hm : 4 < f.items.length) : h.beginTaking r f = replyBegun h r [⟨0x00#8, ⟨.badRequest, []⟩⟩] := by
  rw [Hub.beginTaking, if_neg (by simp [Frame.sumGood_iff.mpr hs])]
  exact if_pos hm

theorem Hub.beginTaking_of_good (h : Hub) (r : Role) (hs : charSum (f.count :: f.chars) = 0xFF#8)
    (hm : f.items.length ≤ 4) : h.beginTaking r f = { h with handler := .taking r f.items [] false } := by
  rw [Hub.beginTaking, if_neg (by simp [Frame.sumGood_iff.mpr hs]), if_neg (by simpa [Config.frameItemsMax] using hm)]

end

theorem badSumsAreAnsweredCheckError_holds : badSumsAreAnsweredCheckError := by
  intro s r f n hf hs
  rw [exec_frameHandover, Hub.frameHandover_of_handed n hf, Hub.beginTaking_of_badSum _ r hs, Hub.takeItems_replyBegun]

theorem tooManyItemsAreAnsweredBadRequest_holds : tooManyItemsAreAnsweredBadRequest := by
  intro s r f n hf hs hm
  rw [exec_frameHandover, Hub.frameHandover_of_handed n hf, Hub.beginTaking_of_tooMany _ r hs hm, Hub.takeItems_replyBegun]

theorem wholeFrameReplies_holds : wholeFrameReplies := ⟨by decide, by decide⟩

/-! ### One item -/

/-- R173's test reads the requests of the entries built and nothing else of them. -/
theorem theSpaceTestIsOnRequests_holds : theSpaceTestIsOnRequests := by
  refine ⟨fun _ _ _ => decide_eq_true_iff, fun code built other later he => ?_⟩
  have reserved (es : List Entry) : reservedLength es = ((es.map (·.request)).map largestEntry).sum := by
    rw [reservedLength, List.map_map]
    rfl
  rw [replyFits, replyFits, reserved, reserved, he]

/-- No request has an entry longer than LOG_READ's (R178). -/
theorem largestEntry_le (code : Byte) : largestEntry code ≤ 164 := by
  unfold largestEntry requestForm
  split
  · rename_i form
    split at form <;> simp only [Option.some.injEq, Prod.mk.injEq, reduceCtorEq] at form <;> omega
  · decide

/-- The only item of a frame always has room for its reply (R173). -/
theorem replyFits_alone (code : Byte) : replyFits code [] 0 = true := by
  have := largestEntry_le code
  simp only [replyFits, reservedLength, Config.replyAreaMax, decide_eq_true_eq, List.map_nil, List.sum_nil]
  omega

/-- An item with none refused before it is taken as the statement says (R170, R172, R173). -/
theorem Hub.takeOne_itemTaken (h : Hub) (r : Role) (x : RawItem) (built : List Entry) (later : Nat) :
    itemTaken r x built later h (h.takeOne r x built false later).1 (h.takeOne r x built false later).2 := by
  constructor
  · intro malformed
    have undecoded : (if x.residue then none else decodeItem r x.code x.args) = none := by
      rcases malformed with residue | unknown
      · rw [if_pos residue]
      · rw [unknown, ite_self]
    simp [Hub.takeOne, undecoded, Answer.bare]
  · intro i whole decoded
    refine ⟨fun full => ?_, fun code g hi fits => ?_⟩
    · simp [Hub.takeOne, whole, decoded, full, Answer.bare]
    · simp [Hub.takeOne, whole, decoded, fits, hi]

section
variable {h : Hub} {r : Role} {x y : RawItem} {rest : List RawItem} {built : List Entry} {refused : Bool}

/-- The part after an item with others behind it, which has made the part `k` and is answered `a` (R171, R172). -/
abbrev Hub.nextItem (k : Hub) (r : Role) (x : RawItem) (a : Answer) (rest : List RawItem) (built : List Entry)
    (refused : Bool) : Hub :=
  { k with
    handler := .taking r rest (built ++ [⟨x.code, a⟩]) (refused || a.verdict.isRefusal), lastEntry := some ⟨x.code, a⟩ }

/-- An item with others behind it: the next one then stands to be taken (R171, R172). -/
theorem Hub.takeItem_among (ht : h.handler = .taking r (x :: y :: rest) built refused) :
    h.takeItem r = (h.takeOne r x built refused (rest.length + 1)).1.nextItem r x
      (h.takeOne r x built refused (rest.length + 1)).2 (y :: rest) built refused := by
  rw [Hub.takeItem, ht]
  exact if_pos rfl

/-- The last item ends the frame: the reply of all the entries is begun (R171, R174). -/
theorem Hub.takeItem_last (ht : h.handler = .taking r [x] built refused) :
    h.takeItem r =
      replyBegun { (h.takeOne r x built refused 0).1 with lastEntry := some ⟨x.code, (h.takeOne r x built refused 0).2⟩ } r
        (built ++ [⟨x.code, (h.takeOne r x built refused 0).2⟩]) := by
  rw [Hub.takeItem, ht]
  exact if_pos rfl

/-- FRAME_HANDOVER of one item takes the front item of the frame (R171). -/
theorem exec_frameHandover_one {items : List RawItem} (s : State) (ht : s.hub.handler = .taking r items built refused) :
    exec (.frameHandover r 1) s = took s (s.hub.takeItem r) :=
  congrArg (took s) ((Hub.frameHandover_of_taking 1 ht).trans (Hub.takeItems_succ 0 ht))

end

/-! ### Items of a frame -/

theorem itemsAreTakenInOrder_holds : itemsAreTakenInOrder := by
  constructor
  · intro s r f n hf hs hm
    rw [exec_frameHandover, exec_frameHandover, Hub.frameHandover_of_handed n hf, Hub.beginTaking_of_good _ r hs hm]
    exact congrArg (took s) (Hub.frameHandover_of_taking n rfl).symm
  · intro s t r x y rest built refused n ht hx
    rw [exec_frameHandover_one s ht] at hx
    cases hx
    have standing := congrArg Hub.handler (Hub.takeItem_among ht)
    rw [exec_frameHandover, exec_frameHandover, Hub.frameHandover_of_taking (n + 1) ht, Hub.takeItems_succ n ht]
    exact congrArg (took s) (Hub.frameHandover_of_taking n standing).symm

theorem anItemAmongOthersIsTaken_holds : anItemAmongOthersIsTaken := fun s r x _ rest built ht =>
  ⟨_, _, s.hub.takeOne_itemTaken r x built (rest.length + 1),
    (exec_frameHandover_one s ht).trans (congrArg (took s) (Hub.takeItem_among ht))⟩

theorem itemsAfterARefusalAreSkipped_holds : itemsAfterARefusalAreSkipped := fun s _ _ _ _ _ ht =>
  (exec_frameHandover_one s ht).trans (congrArg (took s) (Hub.takeItem_among ht))

theorem theLastItemEndsTheFrame_holds : theLastItemEndsTheFrame := by
  intro s r x built refused ht
  refine ⟨(s.hub.takeOne r x built refused 0).1, (s.hub.takeOne r x built refused 0).2, ?_, ?_,
    (exec_frameHandover_one s ht).trans (congrArg (took s) (Hub.takeItem_last ht))⟩
  · rintro rfl
    exact s.hub.takeOne_itemTaken r x built 0
  · rintro rfl
    exact ⟨rfl, rfl⟩

/-- A frame of one item is its last item at once, and there is always room for its reply. -/
theorem aFrameOfOneItemIsTaken_holds : aFrameOfOneItemIsTaken := by
  intro s r f x i code g hf hs one whole decoded hi
  have begun := itemsAreTakenInOrder_holds.1 s r f 1 hf hs (by simp [one])
  rw [one] at begun
  obtain ⟨k, a, taken, -, ended⟩ :=
    theLastItemEndsTheFrame_holds { s with hub := { s.hub with handler := .taking r [x] [] false } } r x [] false rfl
  obtain ⟨-, wellFormed⟩ := taken rfl
  obtain ⟨-, effect⟩ := wellFormed i whole decoded
  have own := effect code g hi (replyFits_alone x.code)
  dsimp only
  rw [begun, ended, ← own]
  rfl

/-- Settles O49: the start of a frame by its two checks, each item by `Hub.takeOne` and the end of the walk. -/
theorem framesAreTaken : Obligations.FramesAreTaken :=
  ⟨badSumsAreAnsweredCheckError_holds, tooManyItemsAreAnsweredBadRequest_holds, wholeFrameReplies_holds,
    theSpaceTestIsOnRequests_holds, itemsAreTakenInOrder_holds, aFrameOfOneItemIsTaken_holds,
    anItemAmongOthersIsTaken_holds, itemsAfterARefusalAreSkipped_holds, theLastItemEndsTheFrame_holds⟩

end Sys2Proof.Machine

namespace Sys2Proof.Machine

/-! ## A step with a command waiting -/

/-- The queue's branch of `step`, for any state with a command waiting. -/
theorem step_of_pending {s : State} {c : Instr} {rest : List Instr} (waiting : s.pending = c :: rest) :
    step s = exec c { s with pending := rest } := by
  unfold step
  rw [waiting]

/-- Settles O1: the queue's branch of `step`, the state being one with `c` at the front of its queue. -/
theorem stepTakesTheFrontCommand : Obligations.StepTakesTheFrontCommand := fun c rest s =>
  step_of_pending (s := { s with pending := c :: rest }) rfl

end Sys2Proof.Machine

/-! ## The interlock, and the mode over its map

What the zones permit stands on the map and on what the latest sample gave. The commands that change neither these nor the mode are
gone through once, in `Hub.Steady`; both invariants are then a matter of the few commands named in `writesGround`. -/

namespace Sys2Proof.Machine

/-! ### What the permission of a motion stands on -/

/-- The zone map and what the latest sample derived for each axis. -/
def Hub.ground (h : Hub) : PerAxis AxisMap × PerAxis Sense := (h.map, h.sampler.sense)

/-- Neither the axis's own zone nor the current entry of another axis refuses it the direction (R23, conditions 1 and 2). -/
def Hub.zonesPermit (h : Hub) (a : Axis) (d : Direction) : Prop :=
  h.ownZoneOk a d = true ∧ ∀ b, b ≠ a → ((h.currentEntry b).allow.towards b a).contains d = true

section
variable {h k l : Hub} {a : Axis} {d : Direction}

theorem Hub.interlocked_iff : h.interlocked ↔
    ∀ a, (h.record a).state = .moving → h.zonesPermit a (h.record a).direction := Iff.rfl

theorem Hub.sense_of_ground (e : k.ground = h.ground) (a : Axis) : k.sense a = h.sense a :=
  congrArg (fun g => g.2.get a) e

theorem Hub.currentEntry_of_ground (e : k.ground = h.ground) (a : Axis) : k.currentEntry a = h.currentEntry a := by
  have map : k.map = h.map := congrArg Prod.fst e
  rw [Hub.currentEntry, Hub.currentEntry, map, Hub.sense_of_ground e]

theorem Hub.zonesPermit_of_ground (e : k.ground = h.ground) (hp : h.zonesPermit a d) : k.zonesPermit a d := by
  simpa only [Hub.zonesPermit, Hub.ownZoneOk, Hub.sense_of_ground e, Hub.currentEntry_of_ground e] using hp

theorem Hub.zonesAgree_of_ground (e : k.ground = h.ground) (hz : h.zonesAgree) : k.zonesAgree := fun a => by
  rw [Hub.sense_of_ground e]; exact hz a

/-- Nobody refuses the direction to an axis when the search for a refuser finds none (R23). -/
theorem Hub.refusedBy_of_firstRefuser_none (hf : h.firstRefuser a d = none) (b : Axis) : h.refusedBy a d b = false := by
  have every : b ∈ Axis.list := by cases b <;> decide
  exact Bool.eq_false_iff.mpr (List.find?_eq_none.mp hf b every)

/-- The permission test asks more than the zones' permission (R23). -/
theorem Hub.zonesPermit_of_tests (own : h.ownZoneOk a d = true) (others : h.firstRefuser a d = none) : h.zonesPermit a d := by
  refine ⟨own, fun b hb => ?_⟩
  have free := Hub.refusedBy_of_firstRefuser_none others b
  simp only [Hub.refusedBy, bne_iff_ne.mpr hb, Bool.true_and, Bool.or_eq_false_iff, Bool.not_eq_false'] at free
  exact free.1

/-- So does the re-check at a grant (R25). -/
theorem Hub.zonesPermit_of_recheck (hc : h.recheck a = none) : h.zonesPermit a (h.record a).direction := by
  simp only [Hub.recheck] at hc
  split at hc
  · cases hc
  · rename_i own
    split at hc
    · cases hc
    · split at hc
      · cases hc
      · rename_i others
        exact Hub.zonesPermit_of_tests (by simpa using own) (by simpa using others)

/-! ### Commands under which no motion begins or turns without permission -/

/-- `k` has the ground of `h`, and every axis MOVING in `k` was MOVING in that direction, or is permitted it by the zones. -/
structure Hub.Lawful (h k : Hub) : Prop where
  ground : k.ground = h.ground
  moving : ∀ a, (k.record a).state = .moving →
    ((h.record a).state = .moving ∧ (k.record a).direction = (h.record a).direction) ∨ h.zonesPermit a (k.record a).direction

/-- The mode control stays as well. -/
structure Hub.Steady (h k : Hub) : Prop extends Hub.Lawful h k where
  control : k.control = h.control

theorem Hub.Lawful.trans (hk : h.Lawful k) (kl : k.Lawful l) : h.Lawful l where
  ground := kl.ground.trans hk.ground
  moving a ha := by
    rcases kl.moving a ha with ⟨hm, hd⟩ | hp
    · rw [hd]; exact (hk.moving a hm).imp_left fun ⟨h1, h2⟩ => ⟨h1, h2⟩
    · exact .inr (Hub.zonesPermit_of_ground hk.ground.symm hp)

theorem Hub.Steady.trans (hk : h.Steady k) (kl : k.Steady l) : h.Steady l :=
  ⟨hk.toLawful.trans kl.toLawful, kl.control.trans hk.control⟩

theorem Hub.Lawful.interlocked (hk : h.Lawful k) (hi : h.interlocked) : k.interlocked := fun a ha => by
  refine Hub.zonesPermit_of_ground hk.ground ?_
  rcases hk.moving a ha with ⟨hm, hd⟩ | hp
  · rw [hd]; exact hi a hm
  · exact hp

theorem Hub.lawful_of_records (ground : k.ground = h.ground) (records : ∀ a, k.record a = h.record a) : h.Lawful k :=
  ⟨ground, fun a ha => .inl ⟨records a ▸ ha, by rw [records]⟩⟩

/-- The claim table, the ground and the mode control: a command that leaves this part alone is steady. -/
def Hub.zonePart (h : Hub) : ClaimTable × (PerAxis AxisMap × PerAxis Sense) × ModeControl := (h.claims, h.ground, h.control)

theorem Hub.steady_of_zonePart (e : k.zonePart = h.zonePart) : h.Steady k where
  ground := congrArg (fun p => p.2.1) e
  moving a ha := by
    have record : k.record a = h.record a := congrArg (fun p => p.1.records.get a) e
    rw [record] at ha ⊢
    exact .inl ⟨ha, rfl⟩
  control := congrArg (fun p => p.2.2) e

theorem Hub.steady_refl (h : Hub) : h.Steady h := Hub.steady_of_zonePart rfl

/-- One record changes: its axis does not move after it, or moves on in its direction, or is permitted to. -/
theorem Hub.steady_of_record {x : AxisRecord} (ground : k.ground = h.ground) (control : k.control = h.control)
    (record : ∀ b, k.record b = if b = a then x else h.record b)
    (hx : x.state = .moving →
      ((h.record a).state = .moving ∧ x.direction = (h.record a).direction) ∨ h.zonesPermit a x.direction) : h.Steady k where
  ground := ground
  control := control
  moving b hb := by
    rw [record] at hb ⊢
    split at hb
    · rename_i e
      subst e
      simpa using hx hb
    · rename_i e
      rw [if_neg e]
      exact .inl ⟨hb, rfl⟩

/-- A change of other parts after a steady command. -/
theorem Hub.Steady.same (hk : h.Steady k) (e : l.zonePart = k.zonePart) : h.Steady l := hk.trans (Hub.steady_of_zonePart e)

/-! #### Records, ends and grants -/

theorem Hub.steady_setRecord (h : Hub) (a : Axis) (x : AxisRecord)
    (hx : x.state = .moving → (h.record a).state = .moving ∧ x.direction = (h.record a).direction) :
    h.Steady (h.setRecord a x) :=
  Hub.steady_of_record rfl rfl (fun b => h.record_setRecord a b x) fun hm => .inl (hx hm)

theorem Hub.Steady.postTo (hk : h.Steady k) (n : Notice) (l : List Role) : h.Steady (k.postTo n l) :=
  hk.same (by simp [Hub.zonePart, Hub.ground])

theorem Hub.Steady.endMotion (hk : h.Steady k) (a : Axis) (c : EndCause) : h.Steady (k.endMotion a c) :=
  hk.trans <| Hub.steady_of_record (by simp [Hub.ground]) (by simp) (fun b => k.record_endMotion a b c) nofun

theorem Hub.Steady.dropClaim (hk : h.Steady k) (a : Axis) (c : EndCause) : h.Steady (k.dropClaim a c) :=
  hk.trans <| Hub.steady_of_record (by simp [Hub.ground]) (by simp) (fun b => k.record_dropClaim a b c) nofun

theorem Hub.Steady.grant (hk : h.Steady k) (a : Axis) (hp : k.zonesPermit a (k.record a).direction) : h.Steady (k.grant a) :=
  hk.trans <| Hub.steady_of_record (by simp [Hub.ground]) (by simp) (k.record_grant a) fun _ => .inr hp

theorem Hub.Steady.grantFromQueue (hk : h.Steady k) (a : Axis) (hp : k.zonesPermit a (k.record a).direction) :
    h.Steady (k.grantFromQueue a) :=
  hk.trans <| Hub.steady_of_record (by simp [Hub.ground]) (by simp) (k.record_grantFromQueue a) fun _ => .inr hp

/-- A service grants what passes its re-check only (R91). -/
theorem Hub.Steady.service (hk : h.Steady k) : h.Steady k.service := by
  refine Hub.service_induction h.Steady ?_ ?_ k hk
  · intro m e _ c hm _ _
    exact (hm.endMotion e.axis c).same rfl
  · intro m e _ hm _ hc _
    exact hm.grantFromQueue e.axis (Hub.zonesPermit_of_recheck hc)

theorem Hub.Steady.dropAndServe (hk : h.Steady k) (a : Axis) (c : EndCause) : h.Steady (k.dropAndServe a c) := by
  unfold Hub.dropAndServe
  split
  · exact (hk.dropClaim a c).service
  · exact hk.dropClaim a c

theorem Hub.Steady.dropAllClaims (hk : h.Steady k) : h.Steady k.dropAllClaims :=
  Hub.dropAllClaims_induction h.Steady (fun _ a hm _ => hm.dropClaim a .mode) k hk

theorem Hub.Steady.endMotions (hk : h.Steady k) (l : List Axis) (c : EndCause) : h.Steady (k.endMotions l c) :=
  Hub.endMotions_induction h.Steady c (fun _ a hm => hm.endMotion a c) k l hk

/-! #### Asking for flow -/

/-- A suspension begins no motion, and every record keeps its direction (R88). -/
theorem Hub.steady_suspend (h : Hub) (vs : List Axis) :
    h.Steady (h.suspend vs) ∧ ∀ b, ((h.suspend vs).record b).direction = (h.record b).direction := by
  have paused (l : List Axis) (k : Hub) (hk : h.Steady k ∧ ∀ b, (k.record b).direction = (h.record b).direction) :
      h.Steady (l.foldl Hub.pause k) ∧ ∀ b, ((l.foldl Hub.pause k).record b).direction = (h.record b).direction := by
    induction l generalizing k with
    | nil => exact hk
    | cons v l ih =>
      obtain ⟨steady, direction⟩ := hk
      have step : k.Steady (k.pause v) := Hub.steady_of_record (by simp [Hub.ground]) (by simp) (k.record_pause v) nofun
      refine ih _ ⟨steady.trans step, fun b => ?_⟩
      rw [Hub.record_pause]
      split
      · rename_i e; rw [e]; exact direction v
      · exact direction b
  obtain ⟨q, -, e⟩ := Hub.enqueues_eq vs.reverse (vs.foldl Hub.pause h)
  obtain ⟨steady, direction⟩ := paused vs h ⟨h.steady_refl, fun _ => rfl⟩
  rw [Hub.suspend, e]
  exact ⟨steady.same rfl, direction⟩

theorem Hub.steady_queueMotion (h : Hub) (a : Axis) (c : MotionClass) : h.Steady (h.queueMotion a c) :=
  Hub.steady_of_record rfl rfl (fun b => h.record_queueMotion a b c) nofun

/-- A motion that the zones permit asks for flow: it is granted, perhaps after pauses, or queued (R86 to R88). -/
theorem Hub.steady_askFlow (h : Hub) (a : Axis) (c : MotionClass) (hp : h.zonesPermit a (h.record a).direction) :
    h.Steady (h.askFlow a c).1 := by
  have queued := h.steady_queueMotion a c
  have granted := h.steady_refl.grant a hp
  have preempted : h.Steady (h.preempt a) := by
    obtain ⟨steady, direction⟩ := h.steady_suspend (h.victims (h.demand a) h.pausable 0)
    have permitted := Hub.zonesPermit_of_ground steady.ground hp
    rw [← direction a] at permitted
    exact (steady.grant a permitted).service
  unfold Hub.askFlow
  cases c with
  | normal =>
    dsimp only
    split
    · exact granted
    · exact queued
  | urgent =>
    dsimp only
    split
    · exact queued
    · split
      · exact granted
      · split
        · exact preempted
        · exact queued

end
end Sys2Proof.Machine

namespace Sys2Proof.Machine

/-! ### Items that leave the ground and the mode control -/

/-- The commands that act on the map, the samples or the mode control themselves. -/
def writesGround : Instr → Bool
  | .powerOn _ | .sample _ | .stopInputActive | .zoneSetBounds _ _ _ | .zoneSetEntry _ _ _ _ _ | .modeSet _ _ | .clearStop _
  | .restart _ => true
  | _ => false

section
variable (h : Hub) (r : Role)

theorem claimItem_steady (axis : Byte) : h.Steady (claimItem r axis h).1 := by
  unfold claimItem
  repeat' split
  case h_2.isFalse.isFalse.isTrue => exact h.steady_setRecord _ _ nofun
  case h_2.isFalse.isFalse.isFalse.isTrue => exact h.steady_setRecord _ _ fun hm => ⟨hm, rfl⟩
  all_goals exact h.steady_refl

theorem releaseItem_steady (axis : Byte) : h.Steady (releaseItem r axis h).1 := by
  unfold releaseItem
  repeat' split
  case h_2.isFalse.isFalse => exact h.steady_refl.dropAndServe _ _
  all_goals exact h.steady_refl

theorem handoverItem_steady (axis p : Byte) : h.Steady (handoverItem r axis p h).1 := by
  unfold handoverItem
  repeat' split
  case h_1.isFalse.isFalse.isFalse.isFalse =>
    refine Hub.Steady.postTo ?_ _ _
    exact h.steady_setRecord _ _ fun hm => ⟨hm, rfl⟩
  all_goals exact h.steady_refl

theorem refreshItem_steady (axis : Byte) : h.Steady (refreshItem r axis h).1 := by
  unfold refreshItem
  repeat' split
  case h_2.isFalse.isFalse => exact h.steady_setRecord _ _ fun hm => ⟨hm, rfl⟩
  all_goals exact h.steady_refl

/-- A retarget keeps the direction of the motion (R67). -/
theorem Hub.retarget_steady (a : Axis) (d : Direction) (t : Target) (hold : Nat) (cls : Option MotionClass) :
    h.Steady (h.retarget a d t hold cls).1 := by
  unfold Hub.retarget
  dsimp only
  split
  · rw [Hub.valueAnswer_hub]; exact h.steady_refl
  · split
    · exact h.steady_refl
    · split
      · refine Hub.Steady.service (Hub.Steady.endMotion ?_ a .arrived)
        exact h.steady_setRecord a _ fun hm => ⟨hm, rfl⟩
      · split
        · exact h.steady_refl
        · exact h.steady_setRecord _ _ fun hm => ⟨hm, rfl⟩

/-- A motion asks for flow only when the zones permit it (R23, R66). -/
theorem Hub.takeUp_steady (a : Axis) (d : Direction) (t : Target) (c : MotionClass) (hold : Nat)
    (hs : (h.record a).state = .claimed) : h.Steady (h.takeUp a d t c hold).1 := by
  have edited : h.Steady (h.asking a d t c hold) :=
    h.steady_setRecord a _ fun hm => absurd (hs.symm.trans hm) nofun
  unfold Hub.takeUp
  split
  · exact h.steady_refl
  · rename_i own
    split
    · exact h.steady_refl
    · split
      · exact h.steady_refl
      · rename_i others
        have permitted : h.zonesPermit a d := Hub.zonesPermit_of_tests (by simp_all) others
        have direction : ((h.asking a d t c hold).record a).direction = d := by
          rw [Hub.asking, Hub.record_setRecord_self]; rfl
        have asked := edited.trans (Hub.steady_askFlow (h.asking a d t c hold) a c
          (by rw [direction]; exact Hub.zonesPermit_of_ground edited.ground permitted))
        rw [Hub.asking] at asked
        split <;> (rename_i he; rw [he] at asked; exact asked)

theorem Hub.newMotion_steady (a : Axis) (d : Direction) (t : Target) (hold : Nat) (cls : Option MotionClass)
    (hs : (h.record a).state = .claimed) : h.Steady (h.newMotion a d t hold cls).1 := by
  unfold Hub.newMotion
  split
  · exact h.steady_refl
  · split
    · rw [Hub.valueAnswer_hub]; exact h.steady_refl
    · exact h.steady_refl
    · split
      · refine Hub.Steady.endMotion ?_ a .arrived
        exact h.steady_setRecord a _ fun hm => absurd (hs.symm.trans hm) nofun
      · exact h.takeUp_steady _ _ _ _ _ hs

theorem moveItem_steady (m : MoveArgs) : h.Steady (moveItem r m h).1 := by
  unfold moveItem
  dsimp only
  repeat' split
  case h_4.isTrue => exact h.retarget_steady ..
  case h_5 => exact h.newMotion_steady _ _ _ _ _ (by assumption)
  all_goals exact h.steady_refl

theorem stopItem_steady (axis : Byte) : h.Steady (stopItem r axis h).1 := by
  unfold stopItem
  dsimp only
  split
  · exact h.steady_refl
  · split
    · exact h.steady_refl
    · split
      · exact h.steady_refl
      · split
        · exact (h.steady_refl.endMotion _ _).service
        · exact h.steady_refl

theorem allStopItem_steady : h.Steady (allStopItem r h).1 := by
  have ended := h.steady_refl.endMotions h.inFlightAxes .allStop
  change h.Steady (if h.inFlightAxes.isEmpty then h.endMotions h.inFlightAxes .allStop
    else (h.endMotions h.inFlightAxes .allStop).service)
  split
  · exact ended
  · exact ended.service

/-! #### Bales, net and film, parameters and notices -/

end

section
variable {h k : Hub} (hk : h.Steady k)
include hk

theorem Hub.Steady.evalFeedHold : h.Steady k.evalFeedHold := hk.same (by simp [Hub.zonePart, Hub.ground])

theorem Hub.Steady.advance (p : Place) (b : Bale) (g : Stage) : h.Steady (k.advance p b g) :=
  hk.same (by simp [Hub.zonePart, Hub.ground])

theorem Hub.Steady.createBale (p : Place) (g : Stage) (recovered : Bool) : h.Steady (k.createBale p g recovered) :=
  hk.same (by simp [Hub.zonePart, Hub.ground])

theorem Hub.Steady.logBale (p : Place) (b : Bale) (planned : Bool) : h.Steady (k.logBale p b planned) :=
  hk.same (by simp [Hub.zonePart, Hub.ground])

theorem Hub.Steady.lateCheck : h.Steady k.lateCheck :=
  hk.same (by have e := congrArg Hub.zonePart k.lateCheck_frame; exact e)

theorem Hub.Steady.stopwatchTick : h.Steady k.stopwatchTick :=
  hk.same (by have e := congrArg Hub.zonePart k.stopwatchTick_frame; exact e)

theorem Hub.Steady.startStopwatch : h.Steady k.startStopwatch := by
  unfold Hub.startStopwatch
  split
  · split
    · exact Hub.Steady.lateCheck (hk.same rfl)
    · exact hk
  · exact hk

theorem Hub.Steady.declareBale (p : Place) (g : Stage) : h.Steady (k.declareBale p g) := by
  have created := hk.createBale p g true
  cases p with
  | chamber => exact created.evalFeedHold
  | cradle | table => exact created.startStopwatch

theorem Hub.Steady.startBinding (b : Bale) : h.Steady (k.startBinding b) := by
  have bound := hk.advance .chamber { b with net := some ⟨k.params.netTarget, 0⟩ } .binding
  exact Hub.Steady.evalFeedHold (bound.same rfl)

end

section
variable (h : Hub) (r : Role)

theorem baleStartItem_steady : h.Steady (baleStartItem r h).1 := by
  unfold baleStartItem
  repeat' split
  case isFalse.isFalse => exact h.steady_refl.createBale _ _ _
  all_goals exact h.steady_refl

theorem bindStartItem_steady : h.Steady (bindStartItem r h).1 := by
  unfold bindStartItem
  repeat' split
  case h_1.isTrue => exact h.steady_refl.startBinding _
  all_goals exact h.steady_refl

theorem bindRetryItem_steady : h.Steady (bindRetryItem r h).1 := by
  unfold bindRetryItem
  repeat' split
  all_goals exact Hub.steady_of_zonePart rfl

theorem wrapStartItem_steady : h.Steady (wrapStartItem r h).1 := by
  unfold wrapStartItem
  repeat' split
  case h_1.isTrue => exact h.steady_refl.advance _ _ _
  all_goals exact h.steady_refl

theorem filmResetItem_steady (code : Byte) : h.Steady (filmResetItem r code h).1 := by
  unfold filmResetItem
  repeat' split
  all_goals exact Hub.steady_of_zonePart rfl

theorem baleNoteItem_steady (v : Half) : h.Steady (baleNoteItem r v h).1 := by
  unfold baleNoteItem
  dsimp only
  repeat' split
  all_goals exact Hub.steady_of_zonePart rfl

theorem baleDeclareItem_steady (p g : Byte) : h.Steady (baleDeclareItem r p g h).1 := by
  unfold baleDeclareItem
  repeat' split
  case h_1.isFalse.isFalse => exact h.steady_refl.declareBale _ _
  all_goals exact h.steady_refl

theorem logDropItem_steady (n : Byte) : h.Steady (logDropItem r n h).1 := by
  unfold logDropItem
  dsimp only
  repeat' split
  all_goals exact Hub.steady_of_zonePart rfl

theorem paramSetItem_steady (i : Byte) (v : Half) : h.Steady (paramSetItem r i v h).1 := by
  unfold paramSetItem
  repeat' split
  all_goals exact Hub.steady_of_zonePart rfl

theorem noticeClearItem_steady (k : KindBits) : h.Steady (noticeClearItem r k h).1 := by
  unfold noticeClearItem; split <;> exact Hub.steady_of_zonePart rfl

theorem noticeMaskItem_steady (k : KindBits) : h.Steady (noticeMaskItem r k h).1 := by
  unfold noticeMaskItem; split <;> exact Hub.steady_of_zonePart rfl

end

/-- Every item but those of `writesGround` is steady. -/
theorem item_steady {i : Instr} {code : Byte} {f : Hub → Hub × Answer} (h : Hub) (hi : itemOf i = some (code, f))
    (hw : writesGround i = false) : h.Steady (f h).1 := by
  cases i <;> simp only [itemOf, Option.some.injEq, Prod.mk.injEq, reduceCtorEq] at hi <;> obtain ⟨-, rfl⟩ := hi
  case claim => exact claimItem_steady ..
  case release => exact releaseItem_steady ..
  case handover => exact handoverItem_steady ..
  case refresh => exact refreshItem_steady ..
  case move => exact moveItem_steady ..
  case stop => exact stopItem_steady ..
  case allStop => exact allStopItem_steady ..
  case axisRead => rw [axisReadItem_hub]; exact h.steady_refl
  case logRead => rw [logReadItem_hub]; exact h.steady_refl
  case zoneGet => rw [zoneGetItem_hub]; exact h.steady_refl
  case flowRead | baleRead | paramGet | status | noticeRead => exact h.steady_refl
  case baleStart => exact baleStartItem_steady ..
  case bindStart => exact bindStartItem_steady ..
  case bindRetry => exact bindRetryItem_steady ..
  case wrapStart => exact wrapStartItem_steady ..
  case filmReset => exact filmResetItem_steady ..
  case baleNote => exact baleNoteItem_steady ..
  case baleDeclare => exact baleDeclareItem_steady ..
  case logDrop => exact logDropItem_steady ..
  case paramSet => exact paramSetItem_steady ..
  case noticeClear => exact noticeClearItem_steady ..
  case noticeMask => exact noticeMaskItem_steady ..
  all_goals exact nomatch hw

/-! ### Events that leave the ground and the mode control -/

theorem Sampler.edgeTimeout_sense (m : Sampler) : m.edgeTimeout.sense = m.sense := by
  unfold Sampler.edgeTimeout; split <;> rfl

theorem Sampler.risingEdge_sense (m : Sampler) (elapsed : Nat) : (m.risingEdge elapsed).sense = m.sense := by
  have measured (high period : Nat) : (m.measure high period).sense = m.sense := by
    unfold Sampler.measure; dsimp only; split <;> rfl
  unfold Sampler.risingEdge
  dsimp only
  repeat' split
  case h_1.isFalse => exact measured _ _
  all_goals rfl

/-- An inclinometer edge is no sample (R12, R14). -/
theorem Sampler.inclinometerEdge_sense (m : Sampler) (rising : Bool) (elapsed : Nat) :
    (m.inclinometerEdge rising elapsed).sense = m.sense := by
  have late : (if Config.edgeTimerMicros < elapsed then { m.edgeTimeout with period := m.period.spoilt } else m).sense =
      m.sense := by
    split
    · exact m.edgeTimeout_sense
    · rfl
  cases rising
  · exact late
  · exact (Sampler.risingEdge_sense ..).trans late

section
variable {h k : Hub} (hk : h.Steady k)
include hk

/-- A conversion to park keeps state and direction of the ring (R69). -/
theorem Hub.Steady.convertToPark : h.Steady k.convertToPark := by
  unfold Hub.convertToPark
  dsimp only
  split
  · exact hk.trans (k.steady_setRecord _ _ fun hm => ⟨hm, rfl⟩)
  · exact hk

theorem Hub.Steady.revolution : h.Steady k.revolution := by
  unfold Hub.revolution
  split
  · rename_i b _
    split
    · rename_i f _ _
      have wound : h.Steady { k with tracker := { k.tracker with table := some (b.wound f k.counter.readyCount) } } := hk.same rfl
      dsimp only
      split
      · exact ((wound.advance .table _ .wrapped).postTo .filmDone [.wr, .ct]).convertToPark
      · exact wound
    · exact hk
  · exact hk

theorem Hub.Steady.setBreakInput (d : Dispenser) (level : Bool) : h.Steady (k.setBreakInput d level) :=
  hk.same (by cases d <;> rfl)

theorem Hub.Steady.netFault (mark : BaleFlags → BaleFlags) : h.Steady (k.netFault mark) := by
  refine Hub.Steady.postTo ?_ _ _
  exact hk.same rfl

theorem Hub.Steady.stopRingUnplanned : h.Steady k.stopRingUnplanned := by
  unfold Hub.stopRingUnplanned
  split
  · exact (hk.endMotion .ring .sensor).service
  · exact hk

end

section
variable (h : Hub)

theorem Hub.steady_ringCount : h.Steady h.ringCount := by
  unfold Hub.ringCount
  split
  · exact h.steady_refl
  · split
    · exact Hub.steady_of_zonePart rfl
    · exact Hub.Steady.revolution (Hub.steady_of_zonePart rfl)

theorem Hub.steady_ringIndexCount : h.Steady h.ringIndexCount := by
  unfold Hub.ringIndexCount
  dsimp only
  split
  · exact Hub.Steady.revolution (Hub.steady_of_zonePart rfl)
  · exact Hub.steady_of_zonePart rfl

theorem Hub.steady_filmBreakEdge (d : Dispenser) (active : Bool) : h.Steady (h.filmBreakEdge d active) := by
  cases active with
  | false => rw [h.filmBreakEdge_inactive]; exact h.steady_refl.setBreakInput d false
  | true =>
    cases hd : h.counter.dispenser d with
    | broken => rw [h.filmBreakEdge_of_broken hd]; exact h.steady_refl.setBreakInput d true
    | ready =>
      have atEdge : h.Steady (h.brokenAt d) := by
        rw [Hub.brokenAt_eq]
        exact ((h.steady_refl.postTo .filmBreak [.wr, .ct]).setBreakInput d true).same rfl
      exact Hub.filmBreakEdge_induction h.Steady (fun _ hk => (hk.endMotion .ring .filmOut).service) h hd atEdge

theorem Hub.steady_netPulse : h.Steady h.netPulse := by
  unfold Hub.netPulse
  split
  · rename_i b _
    split
    · rename_i n _ _ _
      have pulsed : h.Steady { h with tracker := { h.tracker with chamber := some (b.pulsed n) } } := Hub.steady_of_zonePart rfl
      dsimp only
      split
      · have bound := (pulsed.advance .chamber (b.pulsed n) .bound).postTo .netDone [.ch, .ct]
        exact Hub.Steady.evalFeedHold (bound.same rfl)
      · exact pulsed
    · exact h.steady_refl
  · exact h.steady_refl

theorem Hub.steady_netStartTimeout : h.Steady h.netStartTimeout := by
  unfold Hub.netStartTimeout
  split
  · refine Hub.Steady.netFault ?_ _
    exact Hub.steady_of_zonePart rfl
  · exact h.steady_refl

theorem Hub.steady_netGapTimeout : h.Steady h.netGapTimeout := by
  unfold Hub.netGapTimeout
  split
  · refine Hub.Steady.netFault ?_ _
    exact Hub.steady_of_zonePart rfl
  · exact h.steady_refl

theorem Hub.steady_cradleLoadActive : h.Steady h.cradleLoadActive := by
  have fault : h.Steady ({ h with inputs := { h.inputs with cradleLoad := true } }.postAll .sensorFault) := by
    refine Hub.Steady.postTo ?_ _ _
    exact Hub.steady_of_zonePart rfl
  unfold Hub.cradleLoadActive
  dsimp only
  split
  · split
    · refine Hub.Steady.evalFeedHold (Hub.Steady.startStopwatch (Hub.Steady.postTo ?_ _ _))
      exact Hub.steady_of_zonePart rfl
    · exact fault
  · exact fault

theorem Hub.steady_cradleLoadInactive : h.Steady h.cradleLoadInactive := by
  unfold Hub.cradleLoadInactive
  dsimp only
  split <;> exact Hub.steady_of_zonePart rfl

theorem Hub.steady_tableLoadActive : h.Steady h.tableLoadActive := by
  unfold Hub.tableLoadActive
  dsimp only
  repeat' split
  all_goals
    refine Hub.Steady.postTo ?_ _ _
    exact Hub.steady_of_zonePart rfl

theorem Hub.steady_tableLoadInactive : h.Steady h.tableLoadInactive := by
  have recorded : h.Steady { h with inputs := { h.inputs with tableLoad := false } } := Hub.steady_of_zonePart rfl
  unfold Hub.tableLoadInactive
  dsimp only
  split
  · split
    case h_1 => exact recorded.logBale _ _ _
    case h_2 | h_3 | h_4 => exact ((recorded.logBale .table _ false).postTo .sensorFault _).stopRingUnplanned
    all_goals exact recorded
  · exact recorded

theorem Hub.steady_transitTimeout : h.Steady h.transitTimeout := by
  unfold Hub.transitTimeout
  split
  · dsimp only
    split
    · have stopped : h.Steady { h with tracker := { h.tracker with transit := none, stopwatch := none } } :=
        Hub.steady_of_zonePart rfl
      exact (stopped.logBale .cradle _ false).postTo .sensorFault _
    · exact Hub.steady_of_zonePart rfl
  · exact h.steady_refl

theorem Hub.steady_tableLate : h.Steady h.tableLate := by
  unfold Hub.tableLate
  split
  · exact Hub.Steady.lateCheck (Hub.steady_of_zonePart rfl)
  · exact h.steady_refl

theorem Hub.steady_leaseExpiry (a : Axis) : h.Steady (h.leaseExpiry a) := by
  unfold Hub.leaseExpiry
  split
  · exact h.steady_refl
  · exact h.steady_refl.dropAndServe _ _

theorem Hub.steady_waitTimeout (a : Axis) : h.Steady (h.waitTimeout a) := by
  unfold Hub.waitTimeout
  split
  · have ended := h.steady_refl.endMotion a .waitTimeout
    exact Hub.Steady.service (ended.same rfl)
  · exact h.steady_refl

/-- The passing of 10 ms touches the lease of a record alone (R49). -/
theorem Hub.steady_passTime : h.Steady h.passTime := by
  refine ⟨⟨rfl, fun a ha => .inl ?_⟩, rfl⟩
  rw [Hub.record_passTime] at ha ⊢
  refine ⟨(AxisRecord.tick_state _).symm.trans ha, ?_⟩
  unfold AxisRecord.tick
  split <;> rfl

theorem Hub.steady_tick : h.Steady h.tick := by
  have passed := h.steady_passTime
  exact Hub.Steady.stopwatchTick (passed.same rfl)

end

/-- Every event but those of `writesGround` is steady. -/
theorem event_steady {c : Instr} {f : Hub → Hub} (h : Hub) (hc : eventOf c = some f) (hw : writesGround c = false) :
    h.Steady (f h) := by
  cases c <;> simp only [eventOf, Option.some.injEq, reduceCtorEq] at hc <;> subst hc
  case ringCount => exact h.steady_ringCount
  case ringIndexCount => exact h.steady_ringIndexCount
  case inclinometerEdge => exact Hub.steady_of_zonePart (by simp [Hub.zonePart, Hub.ground, Sampler.inclinometerEdge_sense])
  case inclinometerTimeout => exact Hub.steady_of_zonePart (by simp [Hub.zonePart, Hub.ground, Sampler.edgeTimeout_sense])
  case leaseExpiry => exact h.steady_leaseExpiry _
  case waitTimeout => exact h.steady_waitTimeout _
  case filmBreakEdge => exact h.steady_filmBreakEdge _ _
  case netPulse => exact h.steady_netPulse
  case netFeedEdge | fieldClockTick | stopInputInactive => exact Hub.steady_of_zonePart rfl
  case netStartTimeout => exact h.steady_netStartTimeout
  case netGapTimeout => exact h.steady_netGapTimeout
  case cradleLoadActive => exact h.steady_cradleLoadActive
  case cradleLoadInactive => exact h.steady_cradleLoadInactive
  case tableLoadActive => exact h.steady_tableLoadActive
  case tableLoadInactive => exact h.steady_tableLoadInactive
  case transitTimeout => exact h.steady_transitTimeout
  case tableLate => exact h.steady_tableLate
  case prechamberFullEdge active =>
    have recorded : h.Steady { h with inputs := { h.inputs with prechamberFull := active } } := Hub.steady_of_zonePart rfl
    exact recorded.evalFeedHold
  all_goals exact nomatch hw

end Sys2Proof.Machine

namespace Sys2Proof.Machine

/-! ### The commands of `writesGround` -/

section
variable {h : Hub}

/-- A ZONE_SET is refused, or edits the map in SETUP (R37 to R39). -/
theorem zoneSetBoundsItem_cases (r : Role) (axis : Byte) (args : BoundArgs) (h : Hub) :
    (zoneSetBoundsItem r axis args h).1 = h ∨
      h.control.mode = .setup ∧ ∃ a m, (zoneSetBoundsItem r axis args h).1 = h.writeMap a m := by
  unfold zoneSetBoundsItem
  repeat' split
  case h_2.isTrue => exact .inr ⟨by simp_all, _, _, rfl⟩
  all_goals exact .inl rfl

theorem zoneSetEntryItem_cases (r : Role) (axis entry kind : Byte) (allow : AllowArgs) (h : Hub) :
    (zoneSetEntryItem r axis entry kind allow h).1 = h ∨
      h.control.mode = .setup ∧ ∃ a m, (zoneSetEntryItem r axis entry kind allow h).1 = h.writeMap a m := by
  unfold zoneSetEntryItem
  repeat' split
  case h_1 => exact .inr ⟨by simp_all, _, _, rfl⟩
  all_goals exact .inl rfl

/-- MODE_SET does nothing, enters RUN over a map that passes the check, or leaves RUN with every claim dropped (R40, R158). -/
theorem modeSetItem_cases (r : Role) (mode : Byte) (h : Hub) :
    (modeSetItem r mode h).1 = h ∨
      (h.control.mode = .setup ∧ h.mapFailure = none ∧
        (modeSetItem r mode h).1 = { h with control := { h.control with mapChecked := true, mode := .run } }) ∨
      (h.control.mode = .run ∧ (modeSetItem r mode h).1 = h.dropAllClaims.setMode .setup) := by
  unfold modeSetItem
  repeat' split
  case h_2 hm _ =>
    unfold Hub.enterRun
    split
    · exact .inl rfl
    · rename_i passed; exact .inr (.inl ⟨hm, passed, rfl⟩)
  case h_3 hm _ => exact .inr (.inr ⟨hm, rfl⟩)
  all_goals exact .inl rfl

/-- CLEAR_STOP does nothing, or goes from STOPPED to SETUP (R162). -/
theorem clearStopItem_cases (r : Role) (h : Hub) :
    (clearStopItem r h).1 = h ∨ h.control.mode = .stopped ∧
      (clearStopItem r h).1 = { h with control := { h.control with mode := .setup, stopLatch := false } } := by
  unfold clearStopItem
  repeat' split
  case isFalse.isFalse.isFalse.isFalse => exact .inr ⟨by simp_all, rfl⟩
  all_goals exact .inl rfl

/-- RESTART does nothing, or becomes pending outside RUN (R163). -/
theorem restartItem_cases (r : Role) (h : Hub) :
    (restartItem r h).1 = h ∨ h.control.mode ≠ .run ∧
      (restartItem r h).1 = { h with control := { h.control with restartPending := true } } := by
  unfold restartItem
  repeat' split
  case isFalse.isFalse hm => exact .inr ⟨hm, rfl⟩
  all_goals exact .inl rfl

/-- The stop input found active: the level, the claims dropped in RUN, and the latch with STOPPED (R160). -/
theorem Hub.stopInputActive_frame (h : Hub) : ∃ k, h.Steady k ∧
    h.stopInputActive = { k with control := { k.control with mode := .stopped, stopLatch := true } }.postAll .stopLatched := by
  have recorded : h.Steady { h with inputs := { h.inputs with stop := true } } := Hub.steady_of_zonePart rfl
  by_cases hm : h.control.mode = .run
  · refine ⟨_, recorded.dropAllClaims, ?_⟩
    simp only [Hub.stopInputActive, hm, if_true]
  · refine ⟨_, recorded, ?_⟩
    simp only [Hub.stopInputActive, hm, if_false]

/-- After the stop input became active the latch is set with STOPPED, over the same map (R157, R160). -/
theorem Hub.stopInputActive_control (h : Hub) :
    h.stopInputActive.control = { h.control with mode := .stopped, stopLatch := true } := by
  obtain ⟨k, steady, e⟩ := h.stopInputActive_frame
  rw [e, Hub.postAll, Hub.postTo_control, steady.control]

end

/-! ### The mode and the map -/

/-- The latch goes with STOPPED, and RUN with a map that passes the check. -/
def Hub.modeAgrees (h : Hub) : Prop := h.latchAgrees ∧ (h.control.mode = .run → h.mapFailure = none)

section
variable {h k : Hub}

theorem Hub.modeAgrees_of (map : k.map = h.map) (control : k.control = h.control) (hh : h.modeAgrees) : k.modeAgrees := by
  simpa only [Hub.modeAgrees, Hub.latchAgrees, Hub.mapFailure, map, control] using hh

theorem Hub.Steady.modeAgrees (hk : h.Steady k) (hh : h.modeAgrees) : k.modeAgrees :=
  Hub.modeAgrees_of (congrArg Prod.fst hk.ground) hk.control hh

/-- Outside RUN the latch is all there is to agree on. -/
theorem Hub.modeAgrees_outsideRun (latch : k.control.stopLatch = true ↔ k.control.mode = .stopped)
    (mode : k.control.mode ≠ .run) : k.modeAgrees := ⟨latch, fun e => absurd e mode⟩

theorem Hub.stopInputActive_modeAgrees (h : Hub) : h.stopInputActive.modeAgrees := by
  apply Hub.modeAgrees_outsideRun <;> simp [Hub.stopInputActive_control]

theorem powerOnHub_modeAgrees (levels : Levels) : (powerOnHub levels).modeAgrees := by
  unfold powerOnHub
  dsimp only
  split
  · exact Hub.stopInputActive_modeAgrees _
  · exact Hub.modeAgrees_outsideRun ⟨nofun, nofun⟩ nofun

theorem Hub.restarted_modeAgrees (h : Hub) : h.restarted.modeAgrees := by
  apply Hub.modeAgrees_outsideRun <;> cases hs : h.inputs.stop <;> simp [Hub.restarted, hs]

/-- An edit of the map in SETUP (R39). -/
theorem Hub.writeMap_modeAgrees (hm : h.control.mode = .setup) (a : Axis) (m : AxisMap) (hh : h.modeAgrees) :
    (h.writeMap a m).modeAgrees :=
  Hub.modeAgrees_outsideRun hh.1 (by simp [Hub.writeMap, hm])

theorem modeSetItem_modeAgrees (r : Role) (mode : Byte) (hh : h.modeAgrees) : (modeSetItem r mode h).1.modeAgrees := by
  obtain ⟨latch, -⟩ := id hh
  rcases modeSetItem_cases r mode h with e | ⟨hm, passed, e⟩ | ⟨hm, e⟩ <;> rw [e]
  · exact hh
  · refine ⟨?_, fun _ => passed⟩
    simp_all [Hub.latchAgrees]
  · apply Hub.modeAgrees_outsideRun <;> simp_all [Hub.setMode, Hub.latchAgrees]

theorem clearStopItem_modeAgrees (r : Role) (hh : h.modeAgrees) : (clearStopItem r h).1.modeAgrees := by
  rcases clearStopItem_cases r h with e | ⟨-, e⟩ <;> rw [e]
  · exact hh
  · exact Hub.modeAgrees_outsideRun (by simp) (by simp)

theorem restartItem_modeAgrees (r : Role) (hh : h.modeAgrees) : (restartItem r h).1.modeAgrees := by
  rcases restartItem_cases r h with e | ⟨-, e⟩ <;> rw [e] <;> exact hh

end

theorem modeAgrees_itemInvariant : ItemInvariant Hub.modeAgrees where
  sameBlocks hh hk := by
    have e := congrArg (fun k : Hub => (k.map, k.control)) hk
    exact Hub.modeAgrees_of (congrArg Prod.fst e) (congrArg Prod.snd e) hh
  overrun _ _ hh := hh
  restarted h _ := h.restarted_modeAgrees
  item i code f h hi hh := by
    cases hw : writesGround i with
    | false => exact (item_steady h hi hw).modeAgrees hh
    | true =>
      cases i <;> simp only [writesGround, Bool.false_eq_true, itemOf, Option.some.injEq, Prod.mk.injEq, reduceCtorEq] at hw hi
        <;> obtain ⟨-, rfl⟩ := hi
      case zoneSetBounds r axis args =>
        rcases zoneSetBoundsItem_cases r axis args h with e | ⟨hm, a, m, e⟩ <;> rw [e]
        · exact hh
        · exact Hub.writeMap_modeAgrees hm a m hh
      case zoneSetEntry r axis entry kind allow =>
        rcases zoneSetEntryItem_cases r axis entry kind allow h with e | ⟨hm, a, m, e⟩ <;> rw [e]
        · exact hh
        · exact Hub.writeMap_modeAgrees hm a m hh
      case modeSet => exact modeSetItem_modeAgrees _ _ hh
      case clearStop => exact clearStopItem_modeAgrees _ hh
      case restart => exact restartItem_modeAgrees _ hh

/-- Settles O56: every command but those of `writesGround` keeps map and mode control, and these set the latch with STOPPED and
enter RUN by the map check alone. -/
theorem stepKeepsModeAndMap : Obligations.StepKeepsModeAndMap := by
  intro s t latch map ht
  refine modeAgrees_itemInvariant.step (P := Hub.modeAgrees) (fun c f h hc hh => ?_) (fun h => h.steady_tick.modeAgrees)
    ⟨latch, map⟩ ht
  cases hw : writesGround c with
  | false => exact (event_steady h hc hw).modeAgrees hh
  | true =>
    cases c <;> simp only [writesGround, Bool.false_eq_true, eventOf, Option.some.injEq, reduceCtorEq] at hw hc <;> subst hc
    case powerOn levels => exact powerOnHub_modeAgrees levels
    case sample volts =>
      have e := h.sample_settings volts
      exact Hub.modeAgrees_of (congrArg Settings.map e) (congrArg Settings.control e) hh
    case stopInputActive => exact h.stopInputActive_modeAgrees

/-! ### The interlock -/

/-- What a step keeps of the interlock, with the claim table's agreement that it needs. -/
structure Hub.interlockAgrees (h : Hub) : Prop where
  interlocked : h.interlocked
  motion : h.motionAgrees
  zones : h.zonesAgree

section
variable {h k : Hub} {a : Axis}

/-- Without a MOVING axis the interlock holds (R35). -/
theorem Hub.interlocked_of_idle (idle : ∀ a, (k.record a).state = .idle) : k.interlocked :=
  fun a ha => absurd ((idle a).symm.trans ha) nofun

theorem Hub.Lawful.interlockAgrees (hk : h.Lawful k) (hh : h.interlockAgrees) (motion : k.motionAgrees) :
    k.interlockAgrees :=
  ⟨hk.interlocked hh.interlocked, motion, Hub.zonesAgree_of_ground hk.ground hh.zones⟩

/-- An edit of the map in SETUP, where every axis is IDLE (R39, R58). -/
theorem Hub.writeMap_interlockAgrees (hm : h.control.mode = .setup) (a : Axis) (m : AxisMap) (hh : h.interlockAgrees) :
    (h.writeMap a m).interlockAgrees := by
  have motion : (h.writeMap a m).motionAgrees := motionAgrees_motionInvariant.same hh.motion rfl
  have outside : (h.writeMap a m).control.mode ≠ .run := by simp [Hub.writeMap, hm]
  exact ⟨Hub.interlocked_of_idle (motion.2.2.2 outside), motion, hh.zones⟩

theorem Hub.lawful_setMode (h : Hub) (m : Mode) : h.Lawful (h.setMode m) := Hub.lawful_of_records rfl fun _ => rfl

/-- MODE_SET, CLEAR_STOP and RESTART begin no motion (R158, R162, R163). -/
theorem modeSetItem_lawful (r : Role) (mode : Byte) (h : Hub) : h.Lawful (modeSetItem r mode h).1 := by
  rcases modeSetItem_cases r mode h with e | ⟨-, -, e⟩ | ⟨-, e⟩ <;> rw [e]
  · exact h.steady_refl.toLawful
  · exact Hub.lawful_of_records rfl fun _ => rfl
  · exact h.steady_refl.dropAllClaims.toLawful.trans (Hub.lawful_setMode _ _)

theorem clearStopItem_lawful (r : Role) (h : Hub) : h.Lawful (clearStopItem r h).1 := by
  rcases clearStopItem_cases r h with e | ⟨-, e⟩ <;> rw [e] <;> exact Hub.lawful_of_records rfl fun _ => rfl

theorem restartItem_lawful (r : Role) (h : Hub) : h.Lawful (restartItem r h).1 := by
  rcases restartItem_cases r h with e | ⟨-, e⟩ <;> rw [e] <;> exact Hub.lawful_of_records rfl fun _ => rfl

theorem Hub.stopInputActive_lawful (h : Hub) : h.Lawful h.stopInputActive := by
  obtain ⟨k, steady, e⟩ := h.stopInputActive_frame
  rw [e]
  exact steady.toLawful.trans (Hub.lawful_of_records rfl fun _ => rfl)

/-! #### The sample -/

/-- After the stops of a sample an axis moves as before, and none of them named it (R35). -/
theorem Hub.applyStops_moving (stops : List (Axis × EndCause)) (h : Hub) (hm : ((h.applyStops stops).record a).state = .moving) :
    (h.applyStops stops).record a = h.record a ∧ ∀ p ∈ stops, p.1 ≠ a := by
  induction stops generalizing h with
  | nil => exact ⟨rfl, nofun⟩
  | cons p l ih =>
    obtain ⟨record, others⟩ := ih (h.endMotion p.1 p.2) hm
    have named : p.1 ≠ a := fun e => by
      change (((h.endMotion p.1 p.2).applyStops l).record a).state = _ at hm
      rw [record, Hub.record_endMotion, if_pos e.symm] at hm
      exact nomatch hm
    refine ⟨?_, fun q hq => ?_⟩
    · change ((h.endMotion p.1 p.2).applyStops l).record a = _
      rw [record, Hub.record_endMotion, if_neg (Ne.symm named)]
    · rcases List.mem_cons.mp hq with rfl | hq
      · exact named
      · exact others q hq

theorem Hub.applyStops_steady (stops : List (Axis × EndCause)) (hk : h.Steady k) : h.Steady (k.applyStops stops) := by
  induction stops generalizing k with
  | nil => exact hk
  | cons p l ih => exact ih (hk.endMotion p.1 p.2)

/-- An axis that is not in the change set has the zone and the validity of the previous sample, and with the same map its entry
(R11). -/
theorem Hub.same_of_not_changed (map : k.map = h.map) (hc : k.changedFrom h a = false) :
    (k.sense a).zone = (h.sense a).zone ∧ k.currentEntry a = h.currentEntry a := by
  simp only [Hub.changedFrom, Bool.or_eq_false_iff, bne_eq_false_iff_eq] at hc
  exact ⟨hc.1, by rw [Hub.currentEntry, Hub.currentEntry, map, hc.1]⟩

/-- An axis that a sample does not stop is permitted its direction by the zones of that sample: what changed was tested, and what
did not change permits as before (R31 to R35). -/
theorem Hub.zonesPermit_of_not_stopped (map : k.map = h.map) (zones : k.zonesAgree) (before : h.zonesPermit a (k.record a).direction)
    (moving : (k.record a).state = .moving) (kept : k.sampleStop h a = none) : k.zonesPermit a (k.record a).direction := by
  simp only [Hub.sampleStop, moving, ne_eq, not_true_eq_false, if_false] at kept
  split at kept
  · cases kept
  rename_i sensor
  split at kept
  · cases kept
  rename_i limit
  split at kept
  · cases kept
  rename_i blocked
  obtain ⟨own, others⟩ := before
  constructor
  · cases hc : k.changedFrom h a with
    | false =>
      obtain ⟨zone, entry⟩ := Hub.same_of_not_changed map hc
      rw [Hub.ownZoneOk, zone, entry]
      exact own
    | true =>
      simp only [hc, Bool.true_and, Bool.not_eq_true', Bool.not_eq_false, Bool.not_eq_true] at sensor limit
      unfold Hub.ownZoneOk
      split
      · rename_i unknown
        exact absurd ((zones a).mp unknown) (by simp [sensor])
      · simp [limit]
  · intro b hb
    cases hc : k.changedFrom h b with
    | false => rw [(Hub.same_of_not_changed map hc).2]; exact others b hb
    | true =>
      have every : b ∈ Axis.list := by cases b <;> decide
      have tested := List.any_eq_false.mp (Bool.not_eq_true _ ▸ blocked) b every
      simpa [hc, hb] using tested

/-- What a sample derives has zone U exactly when it is invalid (R9). -/
theorem Hub.derive_zone (h : Hub) (volts : Voltages) (a : Axis) :
    (h.derive volts a).zone = .unknown ↔ (h.derive volts a).valid = false := by
  simp only [Hub.derive, Bounds.zoneOf]
  split <;> simp_all

theorem Hub.taken_frame (h : Hub) (volts : Voltages) :
    (h.taken volts).map = h.map ∧ (∀ a, (h.taken volts).record a = h.record a) ∧
      ∀ a, (h.taken volts).sense a = h.derive volts a := by
  unfold Hub.taken
  split
  · exact ⟨rfl, fun _ => rfl, h.sense_capture volts⟩
  · exact ⟨rfl, fun _ => rfl, h.sense_capture volts⟩

/-- A sample leaves the interlock in place: every axis that it does not stop was tested against what changed (R35). -/
theorem Hub.sample_interlocked (volts : Voltages) (hi : h.interlocked) : (h.sample volts).interlocked := by
  obtain ⟨map, record, sense⟩ := h.taken_frame volts
  generalize hk : h.taken volts = k at map record sense
  have zones : k.zonesAgree := fun a => by rw [sense]; exact h.derive_zone volts a
  let stops := k.sampleStops h
  have stopped : k.Steady (k.applyStops stops) := Hub.applyStops_steady stops k.steady_refl
  have interlocked : (k.applyStops stops).interlocked := fun a ha => by
    obtain ⟨same, unnamed⟩ := Hub.applyStops_moving stops k ha
    rw [same] at ha ⊢
    have kept : k.sampleStop h a = none := by
      cases hs : k.sampleStop h a with
      | none => rfl
      | some c =>
        have every : a ∈ Axis.list := by cases a <;> decide
        exact absurd rfl (unnamed (a, c) (List.mem_filterMap.mpr ⟨a, every, by rw [hs]; rfl⟩))
    refine Hub.zonesPermit_of_ground stopped.ground ?_
    refine Hub.zonesPermit_of_not_stopped map zones ?_ ha kept
    rw [record] at ha ⊢
    exact hi a ha
  have arrived := (k.applyStops stops).steady_refl.endMotions (Axis.list.filter (k.applyStops stops).arrived) .arrived
  rw [Hub.sample_eq, hk]
  unfold Hub.evaluate
  dsimp only
  split
  · exact arrived.toLawful.interlocked interlocked
  · exact arrived.service.toLawful.interlocked interlocked

theorem Hub.sample_zonesAgree (h : Hub) (volts : Voltages) : (h.sample volts).zonesAgree := fun a => by
  rw [Hub.sense_sample]; exact h.derive_zone volts a

end

/-- Power-on and a restart leave every axis IDLE (R157, R164). -/
theorem powerOnHub_interlockAgrees (levels : Levels) : (powerOnHub levels).interlockAgrees := by
  obtain ⟨-, -, -, -, -, -, -, -, motion, -, -, zones, -⟩ := resetIsSound
  have fresh : ({ Hub.reset with inputs := levels } : Hub).interlockAgrees :=
    ⟨Hub.interlocked_of_idle fun a => by cases a <;> rfl, motionAgrees_motionInvariant.same motion rfl, zones⟩
  unfold powerOnHub
  dsimp only
  split
  · exact (Hub.stopInputActive_lawful _).interlockAgrees fresh (motionAgrees_motionInvariant.stopInputActive fresh.motion)
  · exact fresh

theorem Hub.restarted_interlockAgrees (h : Hub) (hh : h.interlockAgrees) : h.restarted.interlockAgrees where
  interlocked := Hub.interlocked_of_idle fun a => by cases a <;> rfl
  motion := motionAgrees_motionInvariant.restarted h hh.motion
  zones a := by have z := hh.zones a; cases a <;> exact z

theorem interlockAgrees_itemInvariant : ItemInvariant Hub.interlockAgrees where
  sameBlocks {h k} hh hk := by
    have steady : h.Steady k := Hub.steady_of_zonePart (by have e := congrArg Hub.zonePart hk; exact e)
    have motion : k.motionPart = h.motionPart := by have e := congrArg Hub.motionPart hk; exact e
    exact steady.toLawful.interlockAgrees hh (motionAgrees_motionInvariant.same hh.motion motion)
  overrun h r hh := by
    have steady : h.Steady (h.post .linkOverrun r) := Hub.steady_of_zonePart rfl
    exact steady.toLawful.interlockAgrees hh (motionAgrees_motionInvariant.same hh.motion rfl)
  restarted := Hub.restarted_interlockAgrees
  item i code f h hi hh := by
    have motion := motionAgrees_motionInvariant.item i code f h hi hh.motion
    cases hw : writesGround i with
    | false => exact (item_steady h hi hw).toLawful.interlockAgrees hh motion
    | true =>
      cases i <;> simp only [writesGround, Bool.false_eq_true, itemOf, Option.some.injEq, Prod.mk.injEq, reduceCtorEq] at hw hi
        <;> obtain ⟨-, rfl⟩ := hi
      case zoneSetBounds r axis args =>
        rcases zoneSetBoundsItem_cases r axis args h with e | ⟨hm, a, m, e⟩ <;> rw [e]
        · exact hh
        · exact Hub.writeMap_interlockAgrees hm a m hh
      case zoneSetEntry r axis entry kind allow =>
        rcases zoneSetEntryItem_cases r axis entry kind allow h with e | ⟨hm, a, m, e⟩ <;> rw [e]
        · exact hh
        · exact Hub.writeMap_interlockAgrees hm a m hh
      case modeSet => exact (modeSetItem_lawful _ _ h).interlockAgrees hh motion
      case clearStop => exact (clearStopItem_lawful _ h).interlockAgrees hh motion
      case restart => exact (restartItem_lawful _ h).interlockAgrees hh motion

/-- Settles O52: no command but a sample begins or turns a motion that the zones do not permit, or changes the ground under one; a
sample stops what its changes no longer permit. -/
theorem stepKeepsTheInterlock : Obligations.StepKeepsTheInterlock := by
  intro s t interlocked motion zones ht
  have kept : t.hub.interlockAgrees := by
    refine interlockAgrees_itemInvariant.step (P := Hub.interlockAgrees) (fun c f h hc hh => ?_)
      (fun h hh => h.steady_tick.toLawful.interlockAgrees hh (motionAgrees_motionInvariant.tick hh.motion))
      ⟨interlocked, motion, zones⟩ ht
    cases hw : writesGround c with
    | false =>
      refine (event_steady h hc hw).toLawful.interlockAgrees hh (motionAgrees_motionInvariant.event c f h hc ?_ ?_ hh.motion)
      all_goals rintro _ rfl; exact nomatch hw
    | true =>
      cases c <;> simp only [writesGround, Bool.false_eq_true, eventOf, Option.some.injEq, reduceCtorEq] at hw hc <;> subst hc
      case powerOn levels => exact powerOnHub_interlockAgrees levels
      case sample volts =>
        have captured : (h.capture volts).motionAgrees := hh.motion
        exact ⟨Hub.sample_interlocked volts hh.interlocked, motionAgrees_motionInvariant.sample volts captured,
          h.sample_zonesAgree volts⟩
      case stopInputActive =>
        exact h.stopInputActive_lawful.interlockAgrees hh (motionAgrees_motionInvariant.stopInputActive hh.motion)
  exact ⟨kept.interlocked, kept.zones⟩

end Sys2Proof.Machine

/-! ## Bale numbers, stages and FEED HOLD

Both invariants stand on the numbers and stages of the records alone. `OutlineInvariant` names the few ways in which a command
changes these, and goes through the commands once. -/

namespace Sys2Proof.Machine

/-! ### The outline of the bale tracker -/

/-- The number and the stage of a record. -/
def Bale.tag (b : Bale) : Nat × Stage := (b.number, b.stage)

/-- The tracker's part of the outline. -/
structure Outline where
  chamber : Option (Nat × Stage)
  cradle : Option (Nat × Stage)
  table : Option (Nat × Stage)
  log : List Nat
  nextNumber : Nat
  feedHold : Bool

/-- The numbers and stages of the records, the next number and FEED HOLD. -/
def Tracker.outline (t : Tracker) : Outline :=
  ⟨t.chamber.map Bale.tag, t.cradle.map Bale.tag, t.table.map Bale.tag, t.log.map (·.number), t.nextNumber, t.feedHold⟩

/-- The outline of the tracker, and the input level that FEED HOLD stands on. -/
def Hub.outline (h : Hub) : Outline × Bool := (h.tracker.outline, h.inputs.prechamberFull)

section
variable {h k : Hub} {t u : Tracker}

theorem Hub.outline_of_balePart (e : k.balePart = h.balePart) : k.outline = h.outline :=
  congrArg (fun p => (p.1.outline, p.2.2)) e

theorem Hub.outline_of_tracker (tracker : k.tracker.outline = h.tracker.outline) (inputs : k.inputs = h.inputs) :
    k.outline = h.outline := by rw [Hub.outline, Hub.outline, tracker, inputs]

theorem Tracker.stageAt_of_outline (e : u.outline = t.outline) (p : Place) : u.stageAt p = t.stageAt p := by
  have tags : (u.at p).map Bale.tag = (t.at p).map Bale.tag := by
    cases p
    · exact congrArg Outline.chamber e
    · exact congrArg Outline.cradle e
    · exact congrArg Outline.table e
  have stages := congrArg (Option.map Prod.snd) tags
  rw [Option.map_map, Option.map_map] at stages
  exact stages

/-- The condition of FEED HOLD stands on the outline (R117). -/
theorem Hub.feedHoldCondition_of_outline (e : k.outline = h.outline) : k.feedHoldCondition = h.feedHoldCondition := by
  have tracker : k.tracker.outline = h.tracker.outline := congrArg Prod.fst e
  have full : k.inputs.prechamberFull = h.inputs.prechamberFull := congrArg Prod.snd e
  rw [Hub.feedHoldCondition, Hub.feedHoldCondition, Tracker.stageAt_of_outline tracker, full]

theorem Hub.evalFeedHold_outline (h : Hub) :
    h.evalFeedHold.outline = ({ h.outline.1 with feedHold := h.feedHoldCondition }, h.outline.2) := by
  rw [Hub.outline, Hub.evalFeedHold_tracker, Hub.evalFeedHold_inputs]
  rfl

/-- FEED HOLD evaluated stands on the outline before it. -/
theorem Hub.evalFeedHold_of_outline (e : k.outline = h.outline) : k.evalFeedHold.outline = h.evalFeedHold.outline := by
  rw [Hub.evalFeedHold_outline, Hub.evalFeedHold_outline, Hub.feedHoldCondition_of_outline e, e]

@[simp] theorem Hub.postTo_outline (h : Hub) (n : Notice) (l : List Role) : (h.postTo n l).outline = h.outline :=
  Hub.outline_of_balePart (by simp [Hub.balePart])

/-! #### Records changed beside number and stage -/

/-- The record at a place changed beside its number and its stage. -/
theorem Tracker.outline_put {b c : Bale} {p : Place} (hb : t.at p = some b) (hc : c.tag = b.tag) :
    (t.put p (some c)).outline = t.outline := by
  cases p <;> simp only [Tracker.at] at hb <;> simp [Tracker.outline, Tracker.put, hb, hc]

theorem Tracker.outline_put_map {f : Bale → Bale} (p : Place) (hf : ∀ b, (f b).tag = b.tag) :
    (t.put p ((t.at p).map f)).outline = t.outline := by
  have same : Bale.tag ∘ f = Bale.tag := funext hf
  cases p <;> simp [Tracker.outline, Tracker.put, Tracker.at, same]

theorem Bale.broken_tag (b : Bale) (f : FilmPart) (x : FilmBreak) : (b.broken f x).tag = b.tag := by
  unfold Bale.broken; split <;> rfl

theorem Hub.lateCheck_outline (h : Hub) : h.lateCheck.outline = h.outline := by
  unfold Hub.lateCheck
  split
  · rename_i b _ hb
    split
    · rw [Hub.postAll, Hub.postTo_outline]
      exact Hub.outline_of_tracker (Tracker.outline_put (p := .cradle) hb rfl) rfl
    · rfl
  · rfl

theorem Hub.startStopwatch_outline (h : Hub) : h.startStopwatch.outline = h.outline := by
  unfold Hub.startStopwatch
  split
  · rename_i b _ _ hb _
    split
    · rw [Hub.lateCheck_outline]
      exact Hub.outline_of_tracker (Tracker.outline_put (p := .cradle) hb rfl) rfl
    · rfl
  · rfl

theorem Hub.netFault_outline (h : Hub) (mark : BaleFlags → BaleFlags) : (h.netFault mark).outline = h.outline := by
  rw [Hub.netFault, Hub.postTo_outline]
  exact Hub.outline_of_tracker (Tracker.outline_put_map (f := Bale.markFlags mark) .chamber fun _ => rfl) rfl

theorem Hub.netStartTimeout_outline (h : Hub) : h.netStartTimeout.outline = h.outline := by
  unfold Hub.netStartTimeout
  split
  · exact Hub.netFault_outline _ _
  · rfl

theorem Hub.netGapTimeout_outline (h : Hub) : h.netGapTimeout.outline = h.outline := by
  unfold Hub.netGapTimeout
  split
  · exact Hub.netFault_outline _ _
  · rfl

theorem Hub.captureBreak_outline (h : Hub) (d : Dispenser) : (h.captureBreak d).outline = h.outline := by
  unfold Hub.captureBreak
  split
  · rename_i b hb
    split
    · rename_i f _ _
      exact Hub.outline_of_tracker (Tracker.outline_put (p := .table) hb (b.broken_tag f _)) rfl
    · rfl
  · rfl

theorem Hub.setBreakInput_outline (h : Hub) (d : Dispenser) (level : Bool) : (h.setBreakInput d level).outline = h.outline := by
  cases d <;> rfl

theorem Hub.brokenAt_outline (h : Hub) (d : Dispenser) : (h.brokenAt d).outline = h.outline := by
  rw [Hub.brokenAt, Hub.captureBreak_outline, Hub.postTo_outline]
  exact h.setBreakInput_outline d true

theorem Hub.cradleLoadInactive_outline (h : Hub) : h.cradleLoadInactive.outline = h.outline := by
  unfold Hub.cradleLoadInactive
  dsimp only
  split <;> rfl

theorem Hub.tableLate_outline (h : Hub) : h.tableLate.outline = h.outline := by
  unfold Hub.tableLate
  split
  · rename_i w _
    rw [Hub.lateCheck_outline]
    exact Hub.outline_of_tracker (Tracker.outline_put_map (f := Bale.waitAtLeast w.limit) .cradle fun _ => rfl) rfl
  · rfl

theorem Hub.stopwatchTick_outline (h : Hub) : h.stopwatchTick.outline = h.outline := by
  unfold Hub.stopwatchTick
  split
  · split
    · rfl
    · rw [Hub.lateCheck_outline]
      exact Hub.outline_of_tracker (Tracker.outline_put_map (f := Bale.waitSecond) .cradle fun _ => rfl) rfl
  · rfl

theorem Hub.tick_outline (h : Hub) : h.tick.outline = h.outline := Hub.stopwatchTick_outline _

theorem baleNoteItem_outline (r : Role) (v : Half) (h : Hub) : (baleNoteItem r v h).1.outline = h.outline := by
  have noted (p : Place) {b c : Bale} (hb : h.tracker.at p = some b) (hc : c.tag = b.tag) :
      ({ h with tracker := h.tracker.put p (some c) } : Hub).outline = h.outline :=
    Hub.outline_of_tracker (Tracker.outline_put hb hc) rfl
  unfold baleNoteItem
  dsimp only
  split
  · rfl
  · split
    · rfl
    · split
      · rename_i b hb; exact noted .chamber (c := { b with moisture := some v.toNat }) hb rfl
      · rfl
  · split
    · rfl
    · split
      · rename_i b hb; exact noted .table (c := { b with weight := some v.toNat }) hb rfl
      · rfl

theorem paramSetItem_outline (r : Role) (i : Byte) (v : Half) (h : Hub) : (paramSetItem r i v h).1.outline = h.outline := by
  unfold paramSetItem
  repeat' split
  all_goals rfl

end

/-! ### What a property of the outline must keep -/

/-- The chamber bale carried on to the cradle, and FEED HOLD evaluated (R108, R117). -/
def Hub.carried (h : Hub) (b : Bale) : Hub :=
  { h with tracker := { h.tracker with chamber := none, cradle := some { b with stage := .carried } } }.evalFeedHold

/-- The cradle bale carried on to the table (R110). -/
def Hub.putOnTable (h : Hub) (b : Bale) : Hub :=
  { h with tracker := { h.tracker with cradle := none, table := some { b with stage := .onTable } } }

/-- A property of the outline that every change of number or stage keeps. -/
structure OutlineInvariant (P : Hub → Prop) : Prop where
  same : ∀ {h k : Hub}, P h → k.outline = h.outline → P k
  evalFeedHold : ∀ (h : Hub) (level : Bool), P h → P { h with inputs := { h.inputs with prechamberFull := level } }.evalFeedHold
  advanceChamber : ∀ (h : Hub) (b c : Bale) (g : Stage), P h → h.tracker.chamber = some b → c.number = b.number →
    Place.chamber.admits g = true → P (h.advance .chamber c g).evalFeedHold
  advanceTable : ∀ (h : Hub) (b c : Bale) (g : Stage), P h → h.tracker.table = some b → c.number = b.number →
    Place.table.admits g = true → P (h.advance .table c g)
  carried : ∀ (h : Hub) (b : Bale), P h → h.tracker.chamber = some b → h.tracker.cradle = none → P (h.carried b)
  putOnTable : ∀ (h : Hub) (b : Bale), P h → h.tracker.cradle = some b → h.tracker.table = none → P (h.putOnTable b)
  start : ∀ h : Hub, P h → h.tracker.chamber = none → P (h.createBale .chamber .forming false)
  declareChamber : ∀ (h : Hub) (g : Stage), P h → h.tracker.chamber = none → Place.chamber.admits g = true →
    P (h.createBale .chamber g true).evalFeedHold
  declare : ∀ (h : Hub) (p : Place) (g : Stage), p ≠ .chamber → P h → h.tracker.at p = none → p.admits g = true →
    P (h.createBale p g true)
  log : ∀ (h : Hub) (p : Place) (b : Bale) (planned : Bool), p ≠ .chamber → P h → h.tracker.at p = some b →
    P (h.logBale p b planned)
  logDrop : ∀ (h : Hub) (n : Nat), P h → P { h with tracker := { h.tracker with log := h.tracker.log.drop n } }
  powerOn : ∀ levels, P (powerOnHub levels)

/-- A stage that may be declared at a place is one of its stages (R100, R119). -/
theorem declarable_admits {p : Place} {g : Stage} (hd : declarable p g = true) : p.admits g = true := by
  cases p <;> cases g <;> simp_all [declarable, Place.admits]

section
variable {P : Hub → Prop} (K : OutlineInvariant P)
include K

namespace OutlineInvariant

theorem postTo {h : Hub} (n : Notice) (l : List Role) (hp : P h) : P (h.postTo n l) := K.same hp (by simp)

theorem baleInvariant : BaleInvariant P where
  same hp e := K.same hp (Hub.outline_of_balePart e)
  reportGrant h a d hp := by
    unfold Hub.reportGrant
    split
    · split
      · rename_i b hb
        split
        · exact K.advanceChamber h b b .ejecting hp hb rfl rfl
        · exact hp
      · exact hp
    · split
      · rename_i b hb
        split
        · exact K.advanceTable h b b .dropping hp hb rfl rfl
        · exact hp
      · exact hp
    · exact hp

/-! #### Net and film -/

theorem netTargetReached {h : Hub} {b c : Bale} (hp : P h) (hb : h.tracker.chamber = some b) (hc : c.number = b.number) :
    P (h.netTargetReached c) :=
  K.same (K.advanceChamber h b c .bound hp hb hc rfl) (Hub.evalFeedHold_of_outline (Hub.postTo_outline ..))

theorem netPulse {h : Hub} (hp : P h) : P h.netPulse := by
  unfold Hub.netPulse
  split
  · rename_i b hb
    split
    · rename_i n _ _ _
      have counted : P { h with tracker := { h.tracker with chamber := some (b.pulsed n) } } :=
        K.same hp (Hub.outline_of_tracker (Tracker.outline_put (p := .chamber) hb rfl) rfl)
      dsimp only
      split
      · exact K.netTargetReached (b := b.pulsed n) counted rfl rfl
      · exact counted
    · exact hp
  · exact hp

theorem filmTargetReached {h : Hub} {b : Bale} (hp : P h) (hb : h.tracker.table = some b) : P (h.filmTargetReached b) := by
  refine K.same (K.advanceTable h b b .wrapped hp hb rfl rfl) (Hub.outline_of_tracker ?_ ?_)
  · rw [Hub.filmTargetReached_tracker, Hub.advance_tracker]; rfl
  · have e := congrArg Hub.inputs (h.filmTargetReached_frame b)
    exact e.trans (by simp)

theorem revolution {h : Hub} (hp : P h) : P h.revolution := by
  unfold Hub.revolution
  split
  · rename_i b hb
    split
    · rename_i f _ _
      have wound : P { h with tracker := { h.tracker with table := some (b.wound f h.counter.readyCount) } } :=
        K.same hp (Hub.outline_of_tracker (Tracker.outline_put (p := .table) hb rfl) rfl)
      dsimp only
      split
      · exact K.filmTargetReached (b := b.wound f h.counter.readyCount) wound rfl
      · exact wound
    · exact hp
  · exact hp

theorem ringCount {h : Hub} (hp : P h) : P h.ringCount := by
  unfold Hub.ringCount
  split
  · exact hp
  · split
    · exact K.same hp rfl
    · exact K.revolution (K.same hp rfl)

theorem ringIndexCount {h : Hub} (hp : P h) : P h.ringIndexCount := by
  unfold Hub.ringIndexCount
  dsimp only
  split
  · exact K.revolution (K.same hp rfl)
  · exact K.same hp rfl

theorem filmBreakEdge {h : Hub} (d : Dispenser) (active : Bool) (hp : P h) : P (h.filmBreakEdge d active) := by
  have recorded (level : Bool) : P (h.setBreakInput d level) := K.same hp (h.setBreakInput_outline d level)
  cases active with
  | false => exact recorded false
  | true =>
    cases hd : h.counter.dispenser d with
    | broken => rw [h.filmBreakEdge_of_broken hd]; exact recorded true
    | ready =>
      exact Hub.filmBreakEdge_induction P (fun _ hk => K.baleInvariant.service (K.baleInvariant.endMotion _ _ hk)) h hd
        (K.same hp (h.brokenAt_outline d))

/-! #### Load switches and timers -/

theorem cradleLoadActive {h : Hub} (hp : P h) : P h.cradleLoadActive := by
  have recorded : P { h with inputs := { h.inputs with cradleLoad := true } } := K.same hp rfl
  unfold Hub.cradleLoadActive
  dsimp only
  split
  · rename_i b hb hn
    split
    · refine K.same (K.carried _ b recorded hb hn) (Hub.evalFeedHold_of_outline ?_)
      rw [Hub.startStopwatch_outline, Hub.postAll, Hub.postTo_outline]
    · exact K.postTo _ _ recorded
  · exact K.postTo _ _ recorded

theorem tableLoadActive {h : Hub} (hp : P h) : P h.tableLoadActive := by
  have recorded : P { h with inputs := { h.inputs with tableLoad := true } } := K.same hp rfl
  unfold Hub.tableLoadActive
  dsimp only
  split
  · rename_i b hb hn
    split
    · exact K.postTo _ _ (K.same (K.putOnTable _ b recorded hb hn) rfl)
    · exact K.postTo _ _ recorded
  · exact K.postTo _ _ recorded

theorem tableLoadInactive {h : Hub} (hp : P h) : P h.tableLoadInactive := by
  have recorded : P { h with inputs := { h.inputs with tableLoad := false } } := K.same hp rfl
  unfold Hub.tableLoadInactive
  dsimp only
  split
  · rename_i b hb
    have logged (planned : Bool) := K.log _ .table b planned nofun recorded hb
    split
    case h_1 => exact logged true
    case h_2 | h_3 | h_4 => exact K.baleInvariant.stopRingUnplanned (K.postTo _ _ (logged false))
    all_goals exact recorded
  · exact recorded

theorem transitTimeout {h : Hub} (hp : P h) : P h.transitTimeout := by
  unfold Hub.transitTimeout
  split
  · dsimp only
    split
    · rename_i b hb
      have stopped : P { h with tracker := { h.tracker with transit := none, stopwatch := none } } := K.same hp rfl
      exact K.postTo _ _ (K.log _ .cradle b false nofun stopped hb)
    · exact K.same hp rfl
  · exact hp

/-! #### Items -/

theorem baleStartItem {h : Hub} (r : Role) (hp : P h) : P (baleStartItem r h).1 := by
  unfold Machine.baleStartItem
  split
  · exact hp
  · split
    · exact hp
    · rename_i empty
      exact K.start h hp (by simpa using empty)

theorem bindStartItem {h : Hub} (r : Role) (hp : P h) : P (bindStartItem r h).1 := by
  unfold Machine.bindStartItem
  repeat' split
  case h_1.isTrue b hb _ =>
    have bound := K.advanceChamber h b { b with net := some ⟨h.params.netTarget, 0⟩ } .binding hp hb rfl rfl
    exact K.same bound (Hub.evalFeedHold_of_outline rfl)
  all_goals exact hp

theorem wrapStartItem {h : Hub} (r : Role) (hp : P h) : P (wrapStartItem r h).1 := by
  unfold Machine.wrapStartItem
  repeat' split
  case h_1.isTrue b hb _ => exact K.advanceTable h b _ .wrapping hp hb rfl rfl
  all_goals exact hp

theorem declareBale {h : Hub} {p : Place} {g : Stage} (hp : P h) (empty : h.tracker.at p = none) (hg : p.admits g = true) :
    P (h.declareBale p g) := by
  cases p with
  | chamber => exact K.declareChamber h g hp empty hg
  | cradle => exact K.same (K.declare h .cradle g nofun hp empty hg) (Hub.startStopwatch_outline _)
  | table => exact K.same (K.declare h .table g nofun hp empty hg) (Hub.startStopwatch_outline _)

theorem baleDeclareItem {h : Hub} (r : Role) (p g : Byte) (hp : P h) : P (baleDeclareItem r p g h).1 := by
  unfold Machine.baleDeclareItem
  repeat' split
  case h_1.isFalse.isFalse hd empty =>
    exact K.declareBale hp (by simpa using empty) (declarable_admits (by simpa using hd))
  all_goals exact hp

theorem logDropItem {h : Hub} (r : Role) (n : Byte) (hp : P h) : P (logDropItem r n h).1 := by
  unfold Machine.logDropItem
  dsimp only
  split
  · exact hp
  · split
    · exact hp
    · exact K.logDrop h n.toNat hp

/-- Every step keeps a property of the outline that the changes of number or stage keep. -/
theorem step {s t : State} (hp : P s.hub) (ht : step s = .next t) : P t.hub := by
  refine K.baleInvariant.step hp ht (fun i code f h hi hw hh => ?_) (fun c f h hc hw hh => ?_) (fun h hh => K.same hh rfl)
    fun h hh => K.same hh h.tick_outline
  · cases i <;> simp only [itemOf, Option.some.injEq, Prod.mk.injEq, reduceCtorEq] at hi <;> obtain ⟨-, rfl⟩ := hi
    case baleStart => exact K.baleStartItem _ hh
    case bindStart => exact K.bindStartItem _ hh
    case wrapStart => exact K.wrapStartItem _ hh
    case baleNote => exact K.same hh (baleNoteItem_outline ..)
    case baleDeclare => exact K.baleDeclareItem _ _ _ hh
    case logDrop => exact K.logDropItem _ _ hh
    case paramSet => exact K.same hh (paramSetItem_outline ..)
    all_goals exact nomatch hw
  · cases c <;> simp only [eventOf, Option.some.injEq, reduceCtorEq] at hc <;> subst hc
    case powerOn => exact K.powerOn _
    case ringCount => exact K.ringCount hh
    case ringIndexCount => exact K.ringIndexCount hh
    case filmBreakEdge => exact K.filmBreakEdge _ _ hh
    case netPulse => exact K.netPulse hh
    case netStartTimeout => exact K.same hh h.netStartTimeout_outline
    case netGapTimeout => exact K.same hh h.netGapTimeout_outline
    case cradleLoadActive => exact K.cradleLoadActive hh
    case cradleLoadInactive => exact K.same hh h.cradleLoadInactive_outline
    case tableLoadActive => exact K.tableLoadActive hh
    case tableLoadInactive => exact K.tableLoadInactive hh
    case transitTimeout => exact K.transitTimeout hh
    case tableLate => exact K.same hh h.tableLate_outline
    case prechamberFullEdge level => exact K.evalFeedHold h level hh
    all_goals exact nomatch hw

end OutlineInvariant
end

end Sys2Proof.Machine

namespace Sys2Proof.Machine

/-! ### Numbers held apart -/

/-- The numbers of the records at the three places. -/
def Tracker.placeNumbers (t : Tracker) : List Nat :=
  (t.table.map (·.number)).toList ++ (t.cradle.map (·.number)).toList ++ (t.chamber.map (·.number)).toList

section
variable {t u : Tracker} {b c : Bale} {p : Place}

theorem Tracker.heldNumbers_eq (t : Tracker) : t.heldNumbers = t.placeNumbers ++ t.log.map (·.number) := by
  unfold Tracker.heldNumbers Tracker.queue Tracker.placeNumbers
  cases t.table <;> cases t.cradle <;> cases t.chamber <;> rfl

/-- A record put at an empty place adds its number (R101). -/
theorem Tracker.heldNumbers_put (empty : t.at p = none) : (t.put p (some c)).heldNumbers.Perm (c.number :: t.heldNumbers) := by
  rw [Tracker.heldNumbers_eq, Tracker.heldNumbers_eq, ← List.cons_append, Tracker.put_log]
  refine List.Perm.append_right _ ?_
  cases p <;> simp only [Tracker.at] at empty <;>
    simp only [Tracker.placeNumbers, Tracker.put, empty, Option.map_some, Option.map_none, Option.toList_some,
      Option.toList_none, List.append_nil, List.nil_append, List.append_assoc]
  · rw [← List.append_assoc]
    exact List.perm_append_singleton ..
  · exact List.perm_middle
  · exact List.Perm.refl _

/-- The tracker is itself with the record of a place taken out and put in again. -/
theorem Tracker.put_at (hb : t.at p = some b) : (t.put p none).put p (some b) = t := by
  cases p <;> simp only [Tracker.at] at hb <;> simp [Tracker.put, ← hb]

/-- What a record holds beside the others (R101). -/
theorem Tracker.heldNumbers_of_at (hb : t.at p = some b) : t.heldNumbers.Perm (b.number :: (t.put p none).heldNumbers) := by
  have put := Tracker.heldNumbers_put (t := t.put p none) (c := b) (p := p) (by simp)
  rwa [Tracker.put_at hb] at put

/-- Another record at a place, under the number of the one before it. -/
theorem Tracker.heldNumbers_replace (hb : t.at p = some b) (hc : c.number = b.number) :
    (t.put p (some c)).heldNumbers.Perm t.heldNumbers := by
  have put := Tracker.heldNumbers_put (t := t.put p none) (c := c) (p := p) (by simp)
  have again : (t.put p none).put p (some c) = t.put p (some c) := by cases p <;> rfl
  rw [again, hc] at put
  exact put.trans (Tracker.heldNumbers_of_at hb).symm

/-- A record carried from one place to another that is empty. -/
theorem Tracker.heldNumbers_carry {q : Place} (hb : t.at p = some b) (empty : t.at q = none) (hc : c.number = b.number) :
    ((t.put p none).put q (some c)).heldNumbers.Perm t.heldNumbers := by
  have put := Tracker.heldNumbers_put (t := t.put p none) (c := c) (p := q) (by rw [Tracker.at_put]; split <;> simp [empty])
  rw [hc] at put
  exact put.trans (Tracker.heldNumbers_of_at hb).symm

/-- A record logged keeps its number, and a record that makes room takes its own away (R121). -/
theorem Tracker.heldNumbers_log (hb : t.at p = some b) (hc : c.number = b.number) {l : List Bale} (hl : l.Sublist t.log)
    (nodup : t.heldNumbers.Nodup) : ({ t.put p none with log := l ++ [c] } : Tracker).heldNumbers.Nodup := by
  have apart := (Tracker.heldNumbers_of_at hb).nodup nodup
  refine List.Perm.nodup ?_ (apart.sublist (((hl.map (·.number)).append_left (t.put p none).placeNumbers |>.cons_cons b.number)
    |>.trans (by rw [Tracker.heldNumbers_eq (t.put p none), Tracker.put_log])))
  rw [Tracker.heldNumbers_eq]
  have places : ({ t.put p none with log := l ++ [c] } : Tracker).placeNumbers = (t.put p none).placeNumbers := rfl
  rw [places, List.map_append, ← List.append_assoc, List.map_singleton, hc]
  exact (List.perm_append_singleton ..).symm

theorem Tracker.heldNumbers_of_outline (e : u.outline = t.outline) : u.heldNumbers = t.heldNumbers := by
  have numbers {x y : Option Bale} (e : x.map Bale.tag = y.map Bale.tag) : x.map (·.number) = y.map (·.number) := by
    have first := congrArg (Option.map Prod.fst) e
    rw [Option.map_map, Option.map_map] at first
    exact first
  have log : u.log.map (·.number) = t.log.map (·.number) := congrArg Outline.log e
  rw [Tracker.heldNumbers_eq, Tracker.heldNumbers_eq, log, Tracker.placeNumbers, Tracker.placeNumbers,
    numbers (congrArg Outline.chamber e), numbers (congrArg Outline.cradle e), numbers (congrArg Outline.table e)]

end

/-- Power-on leaves the tracker at reset, whatever the input levels (R157, R186). -/
theorem powerOnHub_tracker (levels : Levels) : (powerOnHub levels).tracker = Hub.reset.tracker := by
  unfold powerOnHub Hub.stopInputActive
  dsimp only
  split
  · split <;> simp [Hub.postAll]
  · rfl

/-! ### Every step keeps the numbers apart -/

/-- The numbers of the part: no two alike, the next one a number, and the log within its bound. -/
def Hub.baleNumbersAgree (h : Hub) : Prop := h.tracker.numbersAgree ∧ h.tracker.logBounded

section
variable {h k : Hub}

/-- What a command keeps that holds the same numbers and logs nothing. -/
theorem Hub.baleNumbersAgree.of_perm (hn : h.baleNumbersAgree) (held : k.tracker.heldNumbers.Perm h.tracker.heldNumbers)
    (next : k.tracker.nextNumber = h.tracker.nextNumber) (log : k.tracker.log = h.tracker.log) : k.baleNumbersAgree := by
  obtain ⟨⟨nodup, range⟩, bounded⟩ := hn
  exact ⟨⟨held.symm.nodup nodup, next ▸ range⟩, by rw [Tracker.logBounded, log]; exact bounded⟩

/-- A record created takes a number that no other holds (R101). -/
theorem Hub.baleNumbersAgree.createBale (hn : h.baleNumbersAgree) {p : Place} (empty : h.tracker.at p = none) (g : Stage)
    (recovered : Bool) : (h.createBale p g recovered).baleNumbersAgree := by
  obtain ⟨⟨nodup, range⟩, bounded⟩ := hn
  have fresh := h.tracker.assignedNumber_free range bounded
  have put := Tracker.heldNumbers_put (c := h.newBale g recovered) empty
  rw [Hub.baleNumbersAgree, Hub.createBale_tracker]
  refine ⟨⟨?_, nextBaleNumber_range _⟩, ?_⟩
  · exact put.symm.nodup (List.nodup_cons.mpr ⟨fresh, nodup⟩)
  · simpa [Tracker.logBounded] using bounded

theorem Hub.baleNumbersAgree.logBale (hn : h.baleNumbersAgree) {p : Place} {b : Bale} (hb : h.tracker.at p = some b)
    (planned : Bool) : (h.logBale p b planned).baleNumbersAgree := by
  obtain ⟨⟨nodup, range⟩, bounded⟩ := hn
  obtain ⟨x, number, -, -, -, tracker⟩ := h.logBale_tracker p b planned
  have kept : (if Config.logCapacity ≤ h.tracker.log.length then h.tracker.log.drop 1 else h.tracker.log).Sublist
      h.tracker.log := by
    split
    · exact List.drop_sublist ..
    · exact List.Sublist.refl _
  rw [Hub.baleNumbersAgree, tracker]
  refine ⟨⟨Tracker.heldNumbers_log hb number kept nodup, by simpa using range⟩, ?_⟩
  have room : 0 < Config.logCapacity := by decide
  simp only [Tracker.logBounded, List.length_append, List.length_singleton] at bounded ⊢
  split
  · rw [List.length_drop]; omega
  · omega

end

theorem baleNumbersAgree_outlineInvariant : OutlineInvariant Hub.baleNumbersAgree where
  same {h k} hn e := by
    have tracker : k.tracker.outline = h.tracker.outline := congrArg Prod.fst e
    obtain ⟨⟨nodup, range⟩, bounded⟩ := hn
    have next : k.tracker.nextNumber = h.tracker.nextNumber := congrArg Outline.nextNumber tracker
    have log : k.tracker.log.length = h.tracker.log.length := by
      simpa [Tracker.outline] using congrArg (fun o => o.log.length) tracker
    exact ⟨⟨Tracker.heldNumbers_of_outline tracker ▸ nodup, next ▸ range⟩, by rwa [Tracker.logBounded, log]⟩
  evalFeedHold h level hn := by rw [Hub.baleNumbersAgree, Hub.evalFeedHold_tracker]; exact hn
  advanceChamber h b c g hn hb hc _ := by
    rw [Hub.baleNumbersAgree, Hub.evalFeedHold_tracker]
    exact hn.of_perm (by rw [Hub.advance_tracker]; exact Tracker.heldNumbers_replace (p := .chamber) hb hc) (by simp) (by simp)
  advanceTable h b c g hn hb hc _ :=
    hn.of_perm (by rw [Hub.advance_tracker]; exact Tracker.heldNumbers_replace (p := .table) hb hc) (by simp) (by simp)
  carried h b hn hb empty := by
    rw [Hub.baleNumbersAgree, Hub.carried, Hub.evalFeedHold_tracker]
    exact hn.of_perm (k := { h with tracker := (h.tracker.put .chamber none).put .cradle (some { b with stage := .carried }) })
      (Tracker.heldNumbers_carry hb empty rfl) rfl rfl
  putOnTable h b hn hb empty :=
    hn.of_perm (k := { h with tracker := (h.tracker.put .cradle none).put .table (some { b with stage := .onTable }) })
      (Tracker.heldNumbers_carry hb empty rfl) rfl rfl
  start h hn empty := hn.createBale (p := .chamber) empty _ _
  declareChamber h g hn empty _ := by
    rw [Hub.baleNumbersAgree, Hub.evalFeedHold_tracker]
    exact hn.createBale (p := .chamber) empty _ _
  declare h p g _ hn empty _ := hn.createBale empty _ _
  log h p b planned _ hn hb := hn.logBale hb planned
  logDrop h n hn := by
    obtain ⟨⟨nodup, range⟩, bounded⟩ := hn
    refine ⟨⟨?_, range⟩, ?_⟩
    · rw [Tracker.heldNumbers_eq] at nodup ⊢
      exact nodup.sublist (((List.drop_sublist n h.tracker.log).map _).append_left _)
    · exact Nat.le_trans (List.drop_sublist n h.tracker.log).length_le bounded
  powerOn levels := by
    obtain ⟨-, -, -, -, -, bounded, numbers, -⟩ := resetIsSound
    rw [Hub.baleNumbersAgree, powerOnHub_tracker]
    exact ⟨numbers, bounded⟩

/-- Settles O58: a record created takes a number that no other holds, and every other command holds the same numbers or fewer. -/
theorem stepKeepsBaleNumbersApart : Obligations.StepKeepsBaleNumbersApart := fun _ _ numbers bounded ht =>
  baleNumbersAgree_outlineInvariant.step (P := Hub.baleNumbersAgree) ⟨numbers, bounded⟩ ht

/-! ### Every step keeps the stages and FEED HOLD -/

/-- FEED HOLD as its condition says, and every record in a stage of its place. -/
def Hub.holdAndStagesAgree (h : Hub) : Prop := h.feedHoldAgrees ∧ h.tracker.stagesAgree

section
variable {h k : Hub} {t : Tracker}

/-- Every place admits the stage of its record (R100). -/
theorem Tracker.stagesAgree_iff : t.stagesAgree ↔ ∀ p g, t.stageAt p = some g → p.admits g = true := by
  simp only [Tracker.stagesAgree, Tracker.stageAt, Option.map_eq_some_iff]
  exact ⟨fun all p g ⟨b, hb, hg⟩ => hg ▸ all p b hb, fun all p b hb => all p b.stage ⟨b, hb, rfl⟩⟩

theorem Tracker.stagesAgree.put (ht : t.stagesAgree) (p : Place) {x : Option Bale}
    (hx : ∀ b, x = some b → p.admits b.stage = true) : (t.put p x).stagesAgree := fun q b hb => by
  rw [Tracker.at_put] at hb
  split at hb
  · rename_i e; exact e ▸ hx b hb
  · exact ht q b hb

theorem Tracker.stagesAgree.put_some (ht : t.stagesAgree) (p : Place) {b : Bale} (hb : p.admits b.stage = true) :
    (t.put p (some b)).stagesAgree := ht.put p fun _ e => Option.some.inj e ▸ hb

theorem Tracker.stagesAgree.put_none (ht : t.stagesAgree) (p : Place) : (t.put p none).stagesAgree :=
  ht.put p fun _ e => nomatch e

/-- FEED HOLD evaluated is what its condition says (R117). -/
theorem Hub.holdAndStagesAgree_evalFeedHold (stages : h.tracker.stagesAgree) : h.evalFeedHold.holdAndStagesAgree := by
  refine ⟨?_, by rw [Hub.evalFeedHold_tracker]; exact stages⟩
  rw [Hub.feedHoldAgrees, Hub.feedHoldCondition, Hub.evalFeedHold_tracker, Hub.evalFeedHold_inputs]
  rfl

/-- FEED HOLD stands on the chamber record and the pre-chamber input (R117). -/
theorem Hub.feedHoldAgrees.of_chamber (hf : h.feedHoldAgrees) (inputs : k.inputs = h.inputs)
    (chamber : k.tracker.chamber = h.tracker.chamber) (feedHold : k.tracker.feedHold = h.tracker.feedHold) :
    k.feedHoldAgrees := by
  have stage : k.tracker.stageAt .chamber = h.tracker.stageAt .chamber := congrArg (Option.map Bale.stage) chamber
  rw [Hub.feedHoldAgrees, Hub.feedHoldCondition, feedHold, inputs, stage]
  exact hf

theorem Hub.createBale_stagesAgree (stages : h.tracker.stagesAgree) {p : Place} {g : Stage} (hg : p.admits g = true)
    (recovered : Bool) : (h.createBale p g recovered).tracker.stagesAgree := by
  rw [Hub.createBale_tracker]
  exact stages.put_some p hg

theorem Tracker.put_chamber {p : Place} (hp : p ≠ .chamber) (x : Option Bale) : (t.put p x).chamber = t.chamber := by
  have other := t.at_put p .chamber x
  rwa [if_neg (Ne.symm hp)] at other

end

theorem holdAndStagesAgree_outlineInvariant : OutlineInvariant Hub.holdAndStagesAgree where
  same {h k} hh e := by
    obtain ⟨hold, stages⟩ := hh
    have tracker : k.tracker.outline = h.tracker.outline := congrArg Prod.fst e
    have feedHold : k.tracker.feedHold = h.tracker.feedHold := congrArg Outline.feedHold tracker
    refine ⟨?_, Tracker.stagesAgree_iff.mpr fun p g hg => ?_⟩
    · rw [Hub.feedHoldAgrees, feedHold, Hub.feedHoldCondition_of_outline e]
      exact hold
    · exact Tracker.stagesAgree_iff.mp stages p g (Tracker.stageAt_of_outline tracker p ▸ hg)
  evalFeedHold h level hh := Hub.holdAndStagesAgree_evalFeedHold hh.2
  advanceChamber h b c g hh _ _ hg := by
    refine Hub.holdAndStagesAgree_evalFeedHold ?_
    rw [Hub.advance_tracker]
    exact hh.2.put_some .chamber hg
  advanceTable h b c g hh _ _ hg := by
    refine ⟨hh.1.of_chamber (by simp) (by rw [Hub.advance_tracker]; rfl) (by rw [Hub.advance_tracker]; rfl), ?_⟩
    rw [Hub.advance_tracker]
    exact hh.2.put_some .table hg
  carried h b hh _ _ :=
    Hub.holdAndStagesAgree_evalFeedHold <|
      (hh.2.put_none .chamber).put_some .cradle (b := { b with stage := .carried }) rfl
  putOnTable h b hh _ _ :=
    ⟨hh.1.of_chamber rfl rfl rfl,
      (hh.2.put_none .cradle).put_some .table (b := { b with stage := .onTable }) rfl⟩
  start h hh empty := by
    refine ⟨?_, Hub.createBale_stagesAgree hh.2 rfl _⟩
    have before : h.tracker.feedHold = false := by
      rw [hh.1, Hub.feedHoldCondition, Tracker.stageAt, Tracker.at, empty]
      exact Bool.and_false _
    rw [Hub.feedHoldAgrees, Hub.feedHoldCondition, Hub.createBale_tracker]
    refine before.trans (Bool.and_false _).symm
  declareChamber h g hh _ hg := Hub.holdAndStagesAgree_evalFeedHold (Hub.createBale_stagesAgree hh.2 hg _)
  declare h p g hp hh _ hg := by
    refine ⟨hh.1.of_chamber (by simp) ?_ (by simp), Hub.createBale_stagesAgree hh.2 hg _⟩
    rw [Hub.createBale_tracker]
    exact Tracker.put_chamber hp _
  log h p b planned hp hh _ := by
    obtain ⟨x, -, -, -, -, tracker⟩ := h.logBale_tracker p b planned
    refine ⟨hh.1.of_chamber (by simp) ?_ (by simp [tracker]), ?_⟩
    · rw [tracker]; exact Tracker.put_chamber hp none
    · rw [tracker]; exact hh.2.put_none p
  logDrop h n hh := hh
  powerOn levels := by
    obtain ⟨-, -, -, -, stages, -⟩ := resetIsSound
    have tracker := powerOnHub_tracker levels
    refine ⟨?_, by rw [tracker]; exact stages⟩
    rw [Hub.feedHoldAgrees, Hub.feedHoldCondition, tracker]
    exact (Bool.and_false _).symm

/-- Settles O57: what changes a stage changes it to one of its place, and evaluates FEED HOLD again where the chamber record is
concerned. -/
theorem stepKeepsFeedHoldAndStages : Obligations.StepKeepsFeedHoldAndStages := fun _ _ hold stages ht =>
  holdAndStagesAgree_outlineInvariant.step (P := Hub.holdAndStagesAgree) ⟨hold, stages⟩ ht

end Sys2Proof.Machine

/-! ## The zone map, the gates and the service -/

namespace Sys2Proof.Machine

open Says

/-! ### The permission test -/

section
variable {h : Hub} {a b : Axis} {d : Direction}

/-- Condition 1 of the permission test (R23). -/
theorem Hub.ownZoneOk_iff : h.ownZoneOk a d = true ↔ ownZoneAllows h a d := by
  unfold Hub.ownZoneOk ownZoneAllows
  cases (h.sense a).zone with
  | unknown => simp
  | number n => cases (h.currentEntry a).kind <;> cases d <;> simp [ZoneType.forbids]

/-- Conditions 2 and 3 for one other axis (R23). -/
theorem Hub.refusedBy_iff : h.refusedBy a d b = true ↔ refuses h a d b := by
  simp [Hub.refusedBy, refuses]

theorem mem_axisList (a : Axis) : a ∈ Axis.list := by cases a <;> decide

theorem Hub.firstRefuser_eq_none_iff : h.firstRefuser a d = none ↔ ∀ b, ¬ refuses h a d b := by
  simp only [Hub.firstRefuser, List.find?_eq_none, Hub.refusedBy_iff]
  exact ⟨fun none b => none b (mem_axisList b), fun none b _ => none b⟩

/-- A search through the axes finds the lowest-numbered one that has the property. -/
theorem find?_axisList {p : Axis → Bool} (hb : p b = true) (lower : ∀ c : Axis, c.number < b.number → p c = false) :
    Axis.list.find? p = some b := by
  have first (c : Axis) (hc : Axis.list.find? p = some c) : c = b := by
    obtain ⟨hp, front, rest, split, before⟩ := List.find?_eq_some_iff_append.mp hc
    have sorted : Axis.list.Pairwise fun x y => x.number < y.number := by decide
    rw [split, List.pairwise_append] at sorted
    obtain ⟨-, behind, -⟩ := sorted
    have place := mem_axisList b
    rw [split, List.mem_append, List.mem_cons] at place
    rcases place with inFront | same | inRest
    · exact absurd hb (by simpa using before b inFront)
    · exact same.symm
    · exact absurd hp (by simp [lower c ((List.pairwise_cons.mp behind).1 b inRest)])
  obtain ⟨c, hc⟩ := Option.isSome_iff_exists.mp (List.find?_isSome.mpr ⟨b, (mem_axisList b), hb⟩)
  rw [hc, first c hc]

/-- The lowest-numbered axis that refuses (R60). -/
theorem Hub.firstRefuser_eq_some (hb : refuses h a d b) (lower : ∀ c : Axis, c.number < b.number → ¬ refuses h a d c) :
    h.firstRefuser a d = some b :=
  find?_axisList (Hub.refusedBy_iff.mpr hb) fun c hc => by
    rw [← Bool.not_eq_true, Hub.refusedBy_iff]; exact lower c hc

/-- Settles O11: the three conditions, the second and third for every other axis. -/
theorem permissionTest : Obligations.PermissionTest := by
  intro h a d
  have others : h.firstRefuser a d = none ↔
      (∀ b, b ≠ a → ((h.currentEntry b).allow.towards b a).contains d = true) ∧
        ∀ b, b ≠ a → (h.record b).state = .moving →
          ((h.currentEntry a).allow.towards a b).contains (h.record b).direction = true := by
    rw [Hub.firstRefuser_eq_none_iff, ← forall_and]
    refine forall_congr' fun b => ?_
    simp only [refuses, not_and, not_or, Bool.not_eq_false]
    exact ⟨fun all => ⟨fun hb => (all hb).1, fun hb => (all hb).2⟩, fun ⟨zone, motion⟩ hb => ⟨zone hb, motion hb⟩⟩
  rw [Hub.permitted, Bool.and_eq_true, Option.isNone_iff_eq_none, others, Hub.ownZoneOk_iff]
  rfl

end

/-! ### The bale gates -/

theorem LayerCounter.one_le_readyCount_iff (c : LayerCounter) :
    1 ≤ c.readyCount ↔ c.dispenserA = .ready ∨ c.dispenserB = .ready := by
  unfold LayerCounter.readyCount
  cases c.dispenserA <;> cases c.dispenserB <;> decide

/-- No record at a place, or one in either of two stages (R26). -/
theorem Tracker.stageAt_allows {t : Tracker} {p : Place} {f : Option Stage → Bool} {g1 g2 : Stage}
    (hf : ∀ x, f x = true ↔ x = none ∨ x = some g1 ∨ x = some g2) :
    f (t.stageAt p) = true ↔ t.at p = none ∨ t.stageAt p = some g1 ∨ t.stageAt p = some g2 := by
  rw [hf, Tracker.stageAt, Option.map_eq_none_iff]

/-- Settles O12: each gate is the conjunction its rule names. -/
theorem baleGates : Obligations.BaleGates := by
  intro h t
  have empty (x : Option Bale) : x.isNone = true ↔ x = none := Option.isNone_iff_eq_none
  refine ⟨?_, empty _, ?_, fun d => ?_, fun a v => ?_, fun d v => ⟨rfl, rfl, by cases d <;> rfl⟩⟩
  · have stages := Tracker.stageAt_allows (t := h.tracker) (p := .chamber)
      (f := fun | none | some .bound | some .ejecting => true | some _ => false) (g1 := .bound) (g2 := .ejecting)
      (by rintro (_ | g) <;> [simp; cases g <;> simp])
    exact (Bool.and_eq_true _ _).to_iff.trans (and_congr stages (empty _))
  · have stages := Tracker.stageAt_allows (t := h.tracker) (p := .table)
      (f := fun | none | some .wrapped | some .dropping => true | some _ => false) (g1 := .wrapped) (g2 := .dropping)
      (by rintro (_ | g) <;> [simp; cases g <;> simp])
    have slope : h.slopeOk = true ↔
        h.sampler.sampledSlopeValid = true ∧ h.sampler.sampledSlope.natAbs ≤ h.params.slopeLimit := by simp [Hub.slopeOk]
    have room : decide (h.tracker.log.length < Config.logCapacity) = true ↔ h.tracker.log.length < 32 := decide_eq_true_iff
    refine ((Bool.and_eq_true _ _).to_iff.trans (and_congr ((Bool.and_eq_true _ _).to_iff.trans (and_congr stages slope)) room)).trans ?_
    exact and_assoc
  · rw [Hub.gateHolds, Bool.and_eq_true, beq_iff_eq, decide_eq_true_iff, LayerCounter.one_le_readyCount_iff]
  · cases a <;> rfl

/-! ### ZONE_GET and ZONE_SET -/

theorem Zone.ofEntry_code (z : Zone) : Zone.ofEntry (BitVec.ofNat 8 z.code).toNat = some z := by
  cases z with
  | unknown => rfl
  | number n =>
    have small : n.val % 256 = n.val := Nat.mod_eq_of_lt (by omega)
    simp [Zone.code, Zone.ofEntry, small]

theorem Zone.ofEntry_eq_none {n : Nat} (hn : 8 < n) : Zone.ofEntry n = none := by
  rw [Zone.ofEntry, dif_neg (by omega), if_neg (by omega)]

theorem argZoneType_code (k : ZoneType) : argZoneType (BitVec.ofNat 8 k.code) = some k := by cases k <;> decide

theorem argZoneType_eq_none {b : Byte} (hb : 3 < b.toNat) : argZoneType b = none := by
  unfold argZoneType
  split
  case h_5 => rfl
  all_goals omega

theorem argAllow_code (x : Allow) : argAllow (BitVec.ofNat 8 x.code) = some x := by cases x <;> decide

theorem argAllow_eq_none {b : Byte} (hb : 3 < b.toNat) : argAllow b = none := by
  unfold argAllow
  split
  case h_5 => rfl
  all_goals omega

theorem argAllowFields_code (f : AllowFields) : argAllowFields ⟨BitVec.ofNat 8 f.a0.code, BitVec.ofNat 8 f.a1.code,
    BitVec.ofNat 8 f.a2.code, BitVec.ofNat 8 f.a3.code, BitVec.ofNat 8 f.a4.code⟩ = some f := by
  simp [argAllowFields, argAllow_code]

theorem argAllowFields_eq_none {f : AllowArgs}
    (hf : 3 < f.a0.toNat ∨ 3 < f.a1.toNat ∨ 3 < f.a2.toNat ∨ 3 < f.a3.toNat ∨ 3 < f.a4.toNat) : argAllowFields f = none := by
  unfold argAllowFields
  split
  · rename_i e0 e1 e2 e3 e4
    rcases hf with hb | hb | hb | hb | hb <;> (rw [argAllow_eq_none hb] at *; contradiction)
  · rfl

theorem zoneGetIsTaken_holds : zoneGetIsTaken := by
  intro s r
  refine ⟨fun axis sel bad => ?_, fun a => ?_, fun a z => ?_⟩
  · refine item_of_answer (f := zoneGetItem r axis sel) ?_
    unfold zoneGetItem
    split
    · rfl
    · rename_i found
      have sel9 : 9 < sel.toNat := bad.resolve_left fun hb => nomatch (argAxis_eq_none hb).symm.trans found
      rw [if_neg (by omega), Zone.ofEntry_eq_none (by omega)]
      rfl
  · refine item_of_answer (f := zoneGetItem r (axisCode a) 9#8) ?_
    rw [zoneGetItem, argAxis_axisCode]
    rfl
  · refine item_of_answer (f := zoneGetItem r (axisCode a) (BitVec.ofNat 8 z.code)) ?_
    have code : (BitVec.ofNat 8 z.code).toNat ≠ 9 := fun e => by
      have found := z.ofEntry_code
      rw [e] at found
      exact nomatch found
    rw [zoneGetItem, argAxis_axisCode]
    simp only [if_neg code, Zone.ofEntry_code]

/-- ZONE_SET from another role or in another mode is refused before its data is looked at (R37, R38). -/
theorem zoneSetBoundsItem_refused {r : Role} {h : Hub} (hr : r ≠ .ct ∨ h.control.mode ≠ .setup) (axis : Byte) (b : BoundArgs) :
    zoneSetBoundsItem r axis b h = (h, .bare (if r ≠ .ct then .notAllowed else .wrongMode)) := by
  unfold zoneSetBoundsItem
  by_cases h1 : r ≠ .ct
  · rw [if_pos h1, if_pos h1]
  · rw [if_neg h1, if_neg h1, if_pos (hr.resolve_left h1)]

theorem zoneSetEntryItem_refused {r : Role} {h : Hub} (hr : r ≠ .ct ∨ h.control.mode ≠ .setup) (axis entry kind : Byte)
    (f : AllowArgs) : zoneSetEntryItem r axis entry kind f h = (h, .bare (if r ≠ .ct then .notAllowed else .wrongMode)) := by
  unfold zoneSetEntryItem
  by_cases h1 : r ≠ .ct
  · rw [if_pos h1, if_pos h1]
  · rw [if_neg h1, if_neg h1, if_pos (hr.resolve_left h1)]

/-- The verdict of a ZONE_SET that changes nothing: the role, the mode, the data (R37, R38). -/
def zoneSetVerdict (r : Role) (h : Hub) : Verdict :=
  if r ≠ .ct then .notAllowed else if h.control.mode ≠ .setup then .wrongMode else .badValue

theorem zoneSetVerdict_early {r : Role} {h : Hub} (hr : r ≠ .ct ∨ h.control.mode ≠ .setup) :
    zoneSetVerdict r h = if r ≠ .ct then .notAllowed else .wrongMode := by
  unfold zoneSetVerdict
  by_cases h1 : r ≠ .ct
  · rw [if_pos h1, if_pos h1]
  · rw [if_neg h1, if_neg h1, if_pos (hr.resolve_left h1)]

theorem zoneSetVerdict_late {r : Role} {h : Hub} (hr : ¬ (r ≠ .ct ∨ h.control.mode ≠ .setup)) :
    zoneSetVerdict r h = .badValue := by
  obtain ⟨h1, h2⟩ := not_or.mp hr
  rw [zoneSetVerdict, if_neg h1, if_neg h2]

theorem zoneSetBoundsIsTaken_holds : zoneSetBoundsIsTaken := by
  intro s r b bad
  have answered (axis : Byte) (h : zoneSetBoundsItem r axis b s.hub = (s.hub, .bare (zoneSetVerdict r s.hub))) : bad axis :=
    item_of_answer (f := zoneSetBoundsItem r axis b) h
  by_cases early : r ≠ .ct ∨ s.hub.control.mode ≠ .setup
  · have all (axis : Byte) : bad axis :=
      answered axis (by rw [zoneSetBoundsItem_refused early, zoneSetVerdict_early early])
    refine ⟨fun axis _ => all axis, fun a => ?_⟩
    rw [if_pos (by tauto)]
    exact all _
  · have late := zoneSetVerdict_late early
    obtain ⟨h1, h2⟩ := not_or.mp early
    refine ⟨fun axis hb => answered axis (by rw [zoneSetBoundsItem, if_neg h1, if_neg h2, argAxis_eq_none hb, late]), fun a => ?_⟩
    have range : (argBounds b).toList.any (fun v => if a = .ring then 719 < v else 4095 < v) = true ↔
        ¬ (argBounds b).toList.all (· ≤ boundMax a) = true := by
      rw [List.any_eq_true, List.all_eq_true]
      simp only [not_forall, boundMax, exists_prop]
      split <;> simp_all
    by_cases inside : (argBounds b).toList.all (· ≤ boundMax a) = true
    · rw [if_neg (not_or.mpr ⟨h1, not_or.mpr ⟨h2, fun outside => range.mp outside inside⟩⟩)]
      refine item_of_answer (f := zoneSetBoundsItem r (axisCode a) b) ?_
      rw [zoneSetBoundsItem, if_neg h1, if_neg h2, argAxis_axisCode]
      exact if_pos inside
    · rw [if_pos (.inr (.inr (range.mpr inside)))]
      exact answered _ (by rw [zoneSetBoundsItem, if_neg h1, if_neg h2, argAxis_axisCode, late]; exact if_neg inside)

theorem zoneSetEntryIsTaken_holds : zoneSetEntryIsTaken := by
  intro s r
  refine ⟨fun axis entry kind f bad => ?_, fun a z k f hr hm => ?_⟩
  · refine item_of_answer (f := zoneSetEntryItem r axis entry kind f) (v := zoneSetVerdict r s.hub) ?_
    by_cases early : r ≠ .ct ∨ s.hub.control.mode ≠ .setup
    · rw [zoneSetEntryItem_refused early, zoneSetVerdict_early early]; rfl
    · obtain ⟨h1, h2⟩ := not_or.mp early
      rw [zoneSetEntryItem, if_neg h1, if_neg h2, zoneSetVerdict_late early]
      split
      · rename_i ha hz hk hf
        exfalso
        rcases bad with hb | hb | hb | hb | hb | hb
        · exact h1 hb
        · exact h2 hb
        · rw [argAxis_eq_none hb] at ha; cases ha
        · rw [Zone.ofEntry_eq_none hb] at hz; cases hz
        · rw [argZoneType_eq_none hb] at hk; cases hk
        · rw [argAllowFields_eq_none hb] at hf; cases hf
      · rfl
  · refine item_of_answer (f := zoneSetEntryItem r (axisCode a) _ _ _) ?_
    rw [zoneSetEntryItem, if_neg (not_not_intro hr), if_neg (not_not_intro hm), argAxis_axisCode, Zone.ofEntry_code,
      argZoneType_code, argAllowFields_code]
    rfl

/-- Settles O13. -/
theorem zoneItemsAreTaken : Obligations.ZoneItemsAreTaken :=
  ⟨zoneGetIsTaken_holds, zoneSetBoundsIsTaken_holds, zoneSetEntryIsTaken_holds⟩

end Sys2Proof.Machine

namespace Sys2Proof.Machine

open Says

/-! ### The service -/

section
variable {h k : Hub} {e : WaitEntry} {rest : List WaitEntry}

/-- A part is known by its settings and by what a grant changes. -/
theorem Hub.eq_of_settings (settings : k.settings = h.settings) (sampler : k.sampler = h.sampler) (claims : k.claims = h.claims)
    (arbiter : k.arbiter = h.arbiter) (tracker : k.tracker = h.tracker) (notices : k.notices = h.notices)
    (lastEntry : k.lastEntry = h.lastEntry) : k = h := by
  cases h
  cases k
  simp_all [Hub.settings]

/-- The claims after a grant (R72). -/
theorem Hub.grant_claims (h : Hub) (a : Axis) : (h.grant a).claims = {
    records := h.claims.records.set a { h.record a with state := .moving, flow := h.demand a, lease := (h.record a).holdTime },
    valves := h.claims.valves.set a (.towards (h.record a).direction) } := by
  rw [Hub.grant, Hub.reportGrant_claims]; rfl

@[simp] theorem Hub.dequeue_settings (h : Hub) (a : Axis) : (h.dequeue a).settings = h.settings := rfl

/-- The grant of a head is one update of the claims and the flow pool, beside its report and its notice (R72, R91). -/
theorem Hub.grantFromQueue_frame (h : Hub) (a : Axis) : h.grantFromQueue a = { h with
    claims := {
      records := h.claims.records.set a { h.record a with state := .moving, flow := h.demand a, lease := (h.record a).holdTime },
      valves := h.claims.valves.set a (.towards (h.record a).direction) },
    arbiter := ⟨h.arbiter.inUse + h.demand a, h.arbiter.grantOrder ++ [a], h.arbiter.queue.filter (fun e => e.axis ≠ a)⟩,
    tracker := (h.grantFromQueue a).tracker, notices := (h.grantFromQueue a).notices } := by
  have beside := h.grantFromQueue_besideGrants a
  refine Hub.eq_of_settings ?_ (by simp) ?_ (h.grantFromQueue_arbiter a) rfl rfl (by simp)
  · simp [Hub.settings]
  · rw [Hub.grantFromQueue, Hub.postAxis, Hub.postTo_claims, Hub.grant_claims]; rfl

/-- The head passes and does not fit: the service stops at once (R91 step 3). -/
theorem Hub.service_of_stuck (he : h.arbiter.queue = e :: rest) (hc : h.recheck e.axis = none) (hf : h.fits e.axis = false) :
    h.service = h := by
  unfold Hub.service
  rw [he, List.length_cons, Hub.serve]
  simp only [he, hc, hf, Bool.false_eq_true, if_false]

theorem Hub.fits_iff (h : Hub) (a : Axis) :
    h.fits a = true ↔ h.params.demand.get a + h.arbiter.inUse ≤ h.params.flowBudget := decide_eq_true_iff

/-- What a service leaves in the queue is the queue without some of its first entries (R91). -/
theorem Hub.service_queue (hq : h.queueAgrees) : ∃ n, h.service.arbiter.queue = h.arbiter.queue.drop n := by
  have behind (k : Hub) (e : WaitEntry) (rest : List WaitEntry) (nodup : (k.arbiter.queue.map (·.axis)).Nodup)
      (hk : k.arbiter.queue = e :: rest) : k.arbiter.queue.filter (fun x => x.axis ≠ e.axis) = rest := by
    rw [hk, List.map_cons, List.nodup_cons] at nodup
    rw [hk, List.filter_cons_of_neg (by simp)]
    exact List.filter_eq_self.mpr fun x hx => by
      simpa using fun same : x.axis = e.axis => nodup.1 (same ▸ List.mem_map_of_mem hx)
  have step {k l : Hub} {e : WaitEntry} {rest : List WaitEntry} (nodup : (k.arbiter.queue.map (·.axis)).Nodup)
      (hk : k.arbiter.queue = e :: rest) (left : l.arbiter.queue = rest)
      (kept : ∃ n, k.arbiter.queue = h.arbiter.queue.drop n) :
      (l.arbiter.queue.map (·.axis)).Nodup ∧ ∃ n, l.arbiter.queue = h.arbiter.queue.drop n := by
    obtain ⟨n, drop⟩ := kept
    rw [hk, List.map_cons, List.nodup_cons] at nodup
    exact ⟨left ▸ nodup.2, n + 1, by rw [left, ← List.drop_drop, ← drop, hk]; rfl⟩
  have every : (h.service.arbiter.queue.map (·.axis)).Nodup ∧ ∃ n, h.service.arbiter.queue = h.arbiter.queue.drop n := by
    refine Hub.service_induction
      (fun k => (k.arbiter.queue.map (·.axis)).Nodup ∧ ∃ n, k.arbiter.queue = h.arbiter.queue.drop n) ?_ ?_ h ⟨hq.1, 0, rfl⟩
    · rintro k e rest c ⟨nodup, kept⟩ hk -
      refine step nodup hk ?_ kept
      rw [← behind k e rest nodup hk, Hub.dequeue, Hub.endMotion_arbiter, Hub.undoMotion_arbiter]
      split <;> simp [List.filter_filter]
    · rintro k e rest ⟨nodup, kept⟩ hk - -
      refine step nodup hk ?_ kept
      rw [Hub.grantFromQueue_arbiter]
      exact behind k e rest nodup hk
  exact every.2

/-- The entries behind the head are those of other axes. -/
theorem Hub.other_of_behind (hq : h.queueAgrees) (he : h.arbiter.queue = e :: rest) : ∀ x ∈ rest, x.axis ≠ e.axis := by
  intro x hx
  rw [← h.queue_behind hq he] at hx
  simpa using (List.mem_filter.mp hx).2

/-- A head served, granted or removed, stays as its service left it, and the rest of the queue is served behind it (R91). -/
theorem Hub.service_behind (he : h.arbiter.queue = e :: rest) (hq : h.queueAgrees) (served : h.service = k.service)
    (queue : k.arbiter.queue = rest) (agrees : k.queueAgrees) :
    h.service.record e.axis = k.record e.axis ∧ h.service.claims.valves.get e.axis = k.claims.valves.get e.axis ∧
      ∃ n, h.service.arbiter.queue = rest.drop n := by
  obtain ⟨⟨record, valves⟩, -⟩ := Hub.service_of_no_entry k e.axis (queue ▸ Hub.other_of_behind hq he)
  obtain ⟨n, left⟩ := Hub.service_queue agrees
  rw [served]
  exact ⟨record, valves, n, by rw [left, queue]⟩

end

theorem serviceTakesTheHead_holds : serviceTakesTheHead := by
  intro h e rest hm hv he x t
  have hq : h.queueAgrees := hm.2.1
  refine ⟨fun passes unfit => ?_, fun passes fit => ?_, fun cause fails => ?_⟩
  · refine Hub.service_of_stuck he passes ?_
    rw [← Bool.not_eq_true, Hub.fits_iff]
    omega
  · have fits := (h.fits_iff e.axis).mpr fit
    have entry : h.hasEntry e.axis = true := List.any_eq_true.mpr ⟨e, by simp [he], by simp⟩
    have agrees := Hub.grantFromQueue_motionAgrees e.axis hm entry fits
    have served := h.service_of_granted hq he passes fits
    have queue : (h.grantFromQueue e.axis).arbiter.queue = rest := by
      rw [Hub.grantFromQueue_arbiter]; exact h.queue_behind hq he
    obtain ⟨record, valves, left⟩ := Hub.service_behind he hq served queue agrees.2.1
    have granted := record.trans (h.record_grantFromQueue e.axis e.axis)
    rw [if_pos rfl] at granted
    have after : t.motionAgrees := motionAgrees_motionInvariant.service hm
    refine ⟨granted, ?_, ?_, left⟩
    · exact valves.trans (by rw [Hub.grantFromQueue_valves, PerAxis.get_set_self])
    · exact (after.granted_iff e.axis).mpr (by rw [granted])
  · have ended := h.endMotion_eq e.axis cause hm hv
    have served := h.service_of_removed hm hv he fails
    have held : (h.record e.axis).state ≠ .idle := by
      rcases (hm.entry_iff e.axis).mp ⟨e, by simp [he], rfl⟩ with w | w <;> simp [w]
    have agrees := motionAgrees_motionInvariant.endMotion h e.axis cause hm held
    have queue : (h.endMotion e.axis cause).arbiter.queue = rest := by
      rw [ended, endedHub, Hub.postTo_arbiter]; exact h.queue_behind hq he
    obtain ⟨record, valves, left⟩ := Hub.service_behind he hq served queue agrees.2.1
    refine ⟨record.trans ?_, valves.trans ?_, left⟩
    · rw [ended, endedHub_record, if_pos rfl]; rfl
    · rw [ended, endedHub_valves, PerAxis.get_set_self]

theorem serviceGoesOn_holds : serviceGoesOn := by
  intro h e rest hm hv he x
  have hq : h.queueAgrees := hm.2.1
  refine ⟨fun passes fit => ?_, fun cause fails => ?_⟩
  · have frame := h.grantFromQueue_frame e.axis
    rw [h.queue_behind hq he] at frame
    have holder : (((h.dequeue e.axis).grant e.axis).record e.axis).holder = x.holder := by
      rw [Hub.record_grant, if_pos rfl]; rfl
    have told {r : Role} (hr : r ∈ x.holder.toList ++ [.ct]) : posted (h.grantFromQueue e.axis) (.axis e.axis) r := by
      rw [Hub.grantFromQueue, holder]; exact posted_of_mem _ _ hr
    have reportedAt : reported h (h.grantFromQueue e.axis) e.axis x.direction := by
      have granted : reported h ((h.dequeue e.axis).grant e.axis) e.axis x.direction :=
        reported_congr rfl rfl ((h.dequeue e.axis).grant_reported e.axis)
      have same : (h.grantFromQueue e.axis).tracker = ((h.dequeue e.axis).grant e.axis).tracker := by
        rw [Hub.grantFromQueue, Hub.postAxis, Hub.postTo_tracker]
      have still {r : Role} (hp : posted ((h.dequeue e.axis).grant e.axis) .baleMoved r) :
          posted (h.grantFromQueue e.axis) .baleMoved r := Hub.keepsPosted_postTo _ _ _ r hp
      obtain ⟨tailgate, tilt, other⟩ := granted
      refine ⟨fun b ha hd hb hg => ?_, fun b ha hd hb hg => ?_, fun h1 h2 => same.trans (other h1 h2)⟩
      · obtain ⟨tracker, hold, posts⟩ := tailgate b ha hd hb hg
        rw [same]
        exact ⟨tracker, hold, fun r => still (posts r)⟩
      · obtain ⟨tracker, posts⟩ := tilt b ha hd hb hg
        rw [same]
        exact ⟨tracker, fun r => still (posts r)⟩
    exact ⟨h.grantFromQueue e.axis, h.service_of_granted hq he passes ((h.fits_iff e.axis).mpr fit), reportedAt,
      told (by simp), fun r hr => told (by simp [hr]), frame⟩
  · rw [h.service_of_removed hm hv he fails, h.endMotion_eq e.axis cause hm hv]
    rfl

theorem recheckDecides_holds : recheckDecides := by
  intro h a d gate
  have refuser : (h.firstRefuser a d).isSome = true ↔ ∃ b, refuses h a d b := by
    rw [Option.isSome_iff_ne_none, ne_eq, Hub.firstRefuser_eq_none_iff]
    simp only [not_forall, not_not]
  simp only [← Hub.ownZoneOk_iff]
  refine ⟨fun own => ?_, fun own shut => ?_, fun own holds some => ?_, fun own holds none => ?_⟩
  · rw [Hub.recheck, if_pos (by simpa using own)]
  · rw [Hub.recheck, if_neg (by simpa using own), if_pos (by simpa using shut)]
  · rw [Hub.recheck, if_neg (by simpa using own), if_neg (by simpa using holds), if_pos (refuser.mpr some)]
  · have free : ¬ (h.firstRefuser a d).isSome = true := fun hs => by
      obtain ⟨b, hb⟩ := refuser.mp hs
      exact none b hb
    rw [Hub.recheck, if_neg (by simpa using own), if_neg (by simpa using holds), if_neg free]

/-- Settles O22. -/
theorem serviceTakesTheHead : Obligations.ServiceTakesTheHead :=
  ⟨serviceTakesTheHead_holds, serviceGoesOn_holds, fun h hq => h.service_nil hq, recheckDecides_holds⟩

end Sys2Proof.Machine

/-! ## Every refusal of a MOVE -/

namespace Sys2Proof.Machine

open Says

/-! ### The value checks -/

section
variable {h : Hub} {a : Axis} {d : Direction} {t : Target} {hold : Nat} {c : Option MotionClass}

/-- The value checks that give BAD_VALUE whatever the position (R64 point 1). -/
theorem valuesLegal_iff : valuesLegal a d t hold c = true ↔
    (match t with
      | .run => a = .ring ∧ d = .extend
      | .to v => if a = .ring then d = .extend ∧ v < 720 else 1 ≤ v ∧ v ≤ 4094) ∧ 5 ≤ hold ∧ hold ≤ 255 ∧ c ≠ none := by
  have count : Config.ringCounts = 720 := rfl
  have cls : c.isSome = true ↔ c ≠ none := Option.isSome_iff_ne_none
  rw [valuesLegal.eq_def, Bool.and_eq_true, Bool.and_eq_true, cls, decide_eq_true_iff, and_assoc, and_assoc]
  refine and_congr_left fun _ => ?_
  cases a <;> cases d <;> cases t <;> simp [count]

/-- A linear target behind the axis (R64 point 2). -/
theorem Hub.targetBehind_iff : h.targetBehind a d t = true ↔ ∃ v, t = .to v ∧ a ≠ .ring ∧
    (if d = .extend then v + h.params.tolerance.get a < (h.sense a).position
      else (h.sense a).position + h.params.tolerance.get a < v) := by
  match t with
  | .run => simp [Hub.targetBehind]
  | .to v => cases d <;> simp [Hub.targetBehind]

/-- The first value check that fails decides (R64). -/
theorem Hub.valueFault_eq : h.valueFault a d t hold c =
    if ¬ valuesLegal a d t hold c = true ∨ h.targetBehind a d t = true then some .badValue
    else if c = some .urgent ∧ h.params.urgentOk.get a = false then some .notAllowed
    else none := by
  unfold Hub.valueFault
  cases valuesLegal a d t hold c <;> cases h.targetBehind a d t <;> simp

/-- What each outcome of the value checks says (R64). -/
theorem Hub.valueFault_iff :
    (h.valueFault a d t hold c = some .badValue ↔ ¬ valuesLegal a d t hold c = true ∨ h.targetBehind a d t = true) ∧
    (h.valueFault a d t hold c = some .notAllowed ↔ valuesLegal a d t hold c = true ∧ ¬ h.targetBehind a d t = true ∧
      (c = some .urgent ∧ h.params.urgentOk.get a = false)) ∧
    (h.valueFault a d t hold c = none ↔ valuesLegal a d t hold c = true ∧ ¬ h.targetBehind a d t = true ∧
      ¬ (c = some .urgent ∧ h.params.urgentOk.get a = false)) := by
  rw [Hub.valueFault_eq]
  by_cases barred : c = some .urgent ∧ h.params.urgentOk.get a = false <;>
    cases valuesLegal a d t hold c <;> cases h.targetBehind a d t <;> simp [barred]

/-- Values that pass name a class (R64). -/
theorem Hub.class_of_valueFault (hf : h.valueFault a d t hold c = none) : ∃ x, c = some x := by
  obtain ⟨-, -, passes⟩ := h.valueFault_iff (a := a) (d := d) (t := t) (hold := hold) (c := c)
  obtain ⟨legal, -, -⟩ := passes.mp hf
  obtain ⟨-, -, -, named⟩ := valuesLegal_iff.mp legal
  exact Option.ne_none_iff_exists'.mp named

theorem Hub.targetReached_iff : h.targetReached a t = true ↔ ∃ v, t = .to v ∧
    if a = .ring then h.sampler.ringReferenced = true ∧ circularDistance (h.sense a).position v ≤ h.params.tolerance.get a
    else v ≤ (h.sense a).position + h.params.tolerance.get a ∧ (h.sense a).position ≤ v + h.params.tolerance.get a := by
  match t with
  | .run => simp [Hub.targetReached]
  | .to v => by_cases ha : a = .ring <;> simp [Hub.targetReached, ha]

theorem Hub.targetKeptOut_iff : h.targetKeptOut a t = true ↔
    ∃ v, t = .to v ∧ ((h.map.get a).entries.get ((h.map.get a).bounds.zoneOf v)).kind = .keepOut := by
  cases t <;> simp [Hub.targetKeptOut]

/-- The circular distance of two angles is the smaller of the ways around (R65). -/
theorem circularDistance_eq {p q : Nat} (hp : p < 720) (hq : q < 720) :
    circularDistance p q = min ((q + 720 - p) % 720) ((p + 720 - q) % 720) := by
  have forward : q + (720 - p % 720) = q + 720 - p := by omega
  have back : (720 - (q + 720 - p) % 720) % 720 = (p + 720 - q) % 720 := by omega
  change Nat.min ((q + (720 - p % 720)) % 720) ((720 - (q + (720 - p % 720)) % 720) % 720) = _
  rw [forward, back]

end

theorem moveTestsItsValues_holds : moveTestsItsValues := by
  refine ⟨?_, fun p q hp hq => circularDistance_eq hp hq⟩
  intro h a d t hold c p tol lawful behind barred
  have legal : valuesLegal a d t hold c = true ↔ lawful := valuesLegal_iff
  have back : h.targetBehind a d t = true ↔ behind := Hub.targetBehind_iff
  obtain ⟨badValue, notAllowed, passes⟩ := h.valueFault_iff (a := a) (d := d) (t := t) (hold := hold) (c := c)
  rw [legal, back] at badValue notAllowed passes
  exact ⟨badValue, notAllowed, passes, Hub.targetReached_iff, Hub.targetKeptOut_iff⟩

/-! ### The requester -/

theorem argDirection_eq_none {b : Byte} (hb : 1 < b.toNat) : argDirection b = none := by
  unfold argDirection
  split
  case h_3 => rfl
  all_goals omega

theorem moveChecksItsRequester_holds : moveChecksItsRequester := by
  intro s r m
  refine ⟨fun bad => item_of_answer (f := moveItem r m) ?_, ?_⟩
  · unfold moveItem
    split
    · rename_i found direction
      rcases bad with hb | hb
      · rw [argAxis_eq_none hb] at found; cases found
      · rw [argDirection_eq_none hb] at direction; cases direction
    · rfl
  intro a d ha hd x
  refine ⟨fun hl => ?_, fun hl hh => ?_, fun hh hm hs => ?_⟩
  · refine item_of_moveAnswer (f := moveItem r m) (k := s.hub) (a := a) rfl ?_
    have late : (s.hub.record a).lateFor r = true := (AxisRecord.lateFor_iff _ _).mpr hl
    simp only [moveItem, ha, hd, argAxis_axisCode, argDirection_code, if_pos late]
  · refine item_of_moveAnswer (f := moveItem r m) (k := s.hub) (a := a) rfl ?_
    have late : ¬ (s.hub.record a).lateFor r = true := fun e => hl ((AxisRecord.lateFor_iff _ _).mp e)
    simp only [moveItem, ha, hd, argAxis_axisCode, argDirection_code, if_neg late]
    exact if_pos hh
  · refine item_of_moveAnswer (f := moveItem r m) (k := s.hub) (a := a) rfl ?_
    obtain ⟨axis, direction, target, hold, cls⟩ := m
    obtain rfl : axis = axisCode a := ha
    obtain rfl : direction = BitVec.ofNat 8 d.code := hd
    have standing : x.state ≠ .idle ∧ x.state ≠ .claimed := by
      rcases hs with e | e | ⟨e, -⟩ <;> simp [e]
    have another : ¬ (x.state = .moving ∧ x.direction = d ∧ sameKind a x.target (targetOf target) = true) := by
      rcases hs with e | e | ⟨-, e⟩ <;> simp [e]
    rw [moveItem_held s.hub d target hold cls hm standing.1 hh, if_neg standing.2, if_neg another]

/-! ### Steps 4 to 9 -/

/-- A refused value check answers BAD_VALUE without data, and NOT_ALLOWED with the data of the axis (R60, R64). -/
theorem Hub.valueAnswer_badValue (h : Hub) (a : Axis) : h.valueAnswer a .badValue = (h, .bare .badValue) := rfl

theorem Hub.valueAnswer_notAllowed (h : Hub) (a : Axis) : h.valueAnswer a .notAllowed = h.moveAnswer a .notAllowed [] := rfl

section
variable {h : Hub} {a : Axis} {d : Direction} {t : Target} {hold : Nat} {c : Option MotionClass} {v : Verdict}

/-- A linear axis that is invalid has no position to move from (R63). -/
theorem Hub.newMotion_noPosition (ha : a ≠ .ring) (hv : (h.sense a).valid = false) :
    h.newMotion a d t hold c = h.moveAnswer a .noPosition [] := by
  rw [Hub.newMotion.eq_def, if_pos (by simp [ha, hv])]

/-- The value checks come next (R64). -/
theorem Hub.newMotion_faulty (hp : a = .ring ∨ (h.sense a).valid = true) (hf : h.valueFault a d t hold c = some v) :
    h.newMotion a d t hold c = h.valueAnswer a v := by
  have position : ¬ (a != .ring && !(h.sense a).valid) = true := by rcases hp with e | e <;> simp [e]
  simp only [Hub.newMotion, if_neg position, hf]

theorem Hub.retarget_faulty (hf : h.valueFault a d t hold c = some v) : h.retarget a d t hold c = h.valueAnswer a v := by
  simp only [Hub.retarget, hf]

/-- A retarget keeps the class of the motion (R67). -/
theorem Hub.retarget_otherClass (hf : h.valueFault a d t hold c = none) (hc : c ≠ some (h.record a).cls) :
    h.retarget a d t hold c = h.moveAnswer a .busy [] := by
  simp only [Hub.retarget, hf]
  exact if_pos hc

end

theorem moveIsRefusedAtItsSteps_holds : moveIsRefusedAtItsSteps := by
  intro s r a d v hold c hm hs hh x item fault
  have claimed := moveItem_claimed s.hub d v hold c hm hs hh
  have answered {verdict : Verdict} {more : List Byte}
      (e : s.hub.newMotion a d (targetOf v) hold.toNat (argClass c) = s.hub.moveAnswer a verdict more) :
      item = replied s 0x15#8 s.hub verdict (x.moveData ++ more) := item_of_moveAnswer_more rfl (claimed.trans e)
  have bare {verdict : Verdict}
      (e : s.hub.newMotion a d (targetOf v) hold.toNat (argClass c) = s.hub.moveAnswer a verdict []) :
      item = replied s 0x15#8 s.hub verdict x.moveData := item_of_moveAnswer rfl (claimed.trans e)
  refine ⟨fun ha hv => bare (Hub.newMotion_noPosition ha hv), fun hp => ⟨fun hf => ?_, fun hf => ?_, fun hf ht => ?_⟩⟩
  · exact item_of_answer (claimed.trans ((Hub.newMotion_faulty hp hf).trans (Hub.valueAnswer_badValue ..)))
  · exact bare ((Hub.newMotion_faulty hp hf).trans (Hub.valueAnswer_notAllowed ..))
  · obtain ⟨cls, hc⟩ := Hub.class_of_valueFault hf
    have asked : s.hub.newMotion a d (targetOf v) hold.toNat (argClass c) = s.hub.takeUp a d (targetOf v) cls hold.toNat := by
      rw [hc, Hub.newMotion_lawful _ hp (hc ▸ hf), if_neg (by simp [ht])]
    rw [asked] at answered bare
    refine ⟨fun blocked => answered ?_, fun ho own => ⟨fun hg => bare ?_, fun hg b hb lower => answered ?_⟩⟩
    · have refused : (s.hub.targetKeptOut a (targetOf v) || !s.hub.ownZoneOk a d) = true := by
        rw [← Hub.ownZoneOk_iff] at blocked
        simpa using blocked
      rw [Hub.takeUp, if_pos refused]
      rfl
    all_goals
      have free : ¬ (s.hub.targetKeptOut a (targetOf v) || !s.hub.ownZoneOk a d) = true := by
        simp [ho, Hub.ownZoneOk_iff.mpr own]
      rw [Hub.takeUp, if_neg free]
    · rw [if_pos (by simp [hg])]
    · rw [if_neg (by simp [hg]), Hub.firstRefuser_eq_some hb lower]
      rfl

theorem retargetIsRefused_holds : retargetIsRefused := by
  intro s r a v hold c x hm hs hh item fault
  refine ⟨fun ha other => ?_, fun same => ?_⟩
  · refine item_of_moveAnswer (f := moveItem r ⟨axisCode a, BitVec.ofNat 8 x.direction.code, v, hold, c⟩) (k := s.hub) (a := a)
      rfl ?_
    have unlike : ¬ (x.state = .moving ∧ x.direction = x.direction ∧ sameKind a x.target (targetOf v) = true) :=
      fun ⟨_, _, hk⟩ => other ((sameKind_iff ..).mp hk ha)
    rw [moveItem_held s.hub x.direction v hold c hm (by rw [hs]; nofun) hh, if_neg (by rw [hs]; nofun), if_neg unlike]
  · have moving := moveItem_moving s.hub v hold c hm hs hh same
    have bare {verdict : Verdict} (e : s.hub.retarget a x.direction (targetOf v) hold.toNat (argClass c) =
        s.hub.moveAnswer a verdict []) : item = replied s 0x15#8 s.hub verdict x.moveData :=
      item_of_moveAnswer rfl (moving.trans e)
    refine ⟨fun hf => ?_, fun hf => ?_, fun hf hc => bare (Hub.retarget_otherClass hf hc), fun hf hc ht ho => ?_⟩
    · exact item_of_answer (moving.trans ((Hub.retarget_faulty hf).trans (Hub.valueAnswer_badValue ..)))
    · exact bare ((Hub.retarget_faulty hf).trans (Hub.valueAnswer_notAllowed ..))
    · refine item_of_moveAnswer_more (f := moveItem r ⟨axisCode a, BitVec.ofNat 8 x.direction.code, v, hold, c⟩) rfl
        (moving.trans ?_)
      rw [hc, Hub.retarget_lawful s.hub (hc ▸ hf), if_neg (by simp [ht]), if_pos ho]
      rfl

/-! ### An URGENT motion is not paused -/

section
variable {h k : Hub} {b : Axis}

/-- A service pauses nothing (R91). -/
theorem Hub.service_notPaused (hb : (h.record b).state ≠ .paused) : (h.service.record b).state ≠ .paused := by
  refine Hub.service_induction (fun k => (k.record b).state ≠ .paused) (fun k e _ c hk _ _ => ?_) (fun k e _ hk _ _ _ => ?_) h hb
  · rw [Hub.record_dequeue, Hub.record_endMotion]
    split
    · nofun
    · exact hk
  · rw [Hub.record_grantFromQueue]
    split
    · nofun
    · exact hk

theorem Hub.grant_notPaused (a : Axis) (hb : (h.record b).state ≠ .paused) : ((h.grant a).record b).state ≠ .paused := by
  rw [Hub.record_grant]
  split
  · nofun
  · exact hb

/-- Asking for flow pauses NORMAL motions alone (R87, R88). -/
theorem Hub.askFlow_notPaused (a : Axis) (c : MotionClass) (hb : (h.record b).state ≠ .paused)
    (urgent : (h.record b).cls = .urgent) : ((h.askFlow a c).1.record b).state ≠ .paused := by
  have queued : ((h.queueMotion a c).record b).state ≠ .paused := by
    rw [Hub.record_queueMotion]
    split
    · nofun
    · exact hb
  have spared : b ∉ h.victims (h.demand a) h.pausable 0 := fun hv => by
    have pausable : b ∈ h.pausable := (Hub.victims_sublist ..).subset hv
    simp [Hub.pausable, urgent] at pausable
  have preempted : ((h.preempt a).record b).state ≠ .paused := by
    refine Hub.service_notPaused (Hub.grant_notPaused a ?_)
    have suspended := Hub.record_suspend (vs := h.victims (h.demand a) h.pausable 0) h b
    rw [if_neg spared] at suspended
    exact suspended ▸ hb
  unfold Hub.askFlow
  cases c with
  | normal =>
    dsimp only
    split
    · exact Hub.grant_notPaused a hb
    · exact queued
  | urgent =>
    dsimp only
    split
    · exact queued
    · split
      · exact Hub.grant_notPaused a hb
      · split
        · exact preempted
        · exact queued

theorem Hub.endMotion_notPaused (a : Axis) (c : EndCause) (hb : (h.record b).state ≠ .paused) :
    ((h.endMotion a c).record b).state ≠ .paused := by
  rw [Hub.record_endMotion]
  split
  · nofun
  · exact hb

/-- An edit that keeps the state of an axis. -/
theorem Hub.setRecord_notPaused {a : Axis} {x : AxisRecord} (hx : x.state = (h.record a).state)
    (hb : (h.record b).state ≠ .paused) : ((h.setRecord a x).record b).state ≠ .paused := by
  rw [Hub.record_setRecord]
  split
  · rename_i e; rw [hx, ← e]; exact hb
  · exact hb

theorem Hub.retarget_notPaused (a : Axis) (d : Direction) (t : Target) (hold : Nat) (cls : Option MotionClass)
    (hb : (h.record b).state ≠ .paused) : ((h.retarget a d t hold cls).1.record b).state ≠ .paused := by
  unfold Hub.retarget
  dsimp only
  split
  · rwa [Hub.valueAnswer_hub]
  · split
    · exact hb
    · split
      · exact Hub.service_notPaused (Hub.endMotion_notPaused a .arrived (Hub.setRecord_notPaused rfl hb))
      · split
        · exact hb
        · exact Hub.setRecord_notPaused rfl hb

/-- A MOVE of another axis. -/
theorem Hub.newMotion_notPaused {a : Axis} (other : b ≠ a) (d : Direction) (t : Target) (hold : Nat) (cls : Option MotionClass)
    (hb : (h.record b).state ≠ .paused) (urgent : (h.record b).cls = .urgent) :
    ((h.newMotion a d t hold cls).1.record b).state ≠ .paused := by
  have asked (c : MotionClass) : (((h.asking a d t c hold).askFlow a c).1.record b).state ≠ .paused := by
    apply Hub.askFlow_notPaused <;> rwa [Hub.record_asking_of_ne other]
  unfold Hub.newMotion
  split
  · exact hb
  · split
    · rwa [Hub.valueAnswer_hub]
    · exact hb
    · split
      · exact Hub.endMotion_notPaused a .arrived (Hub.setRecord_notPaused rfl hb)
      · rename_i c _ _
        have taken := asked c
        unfold Hub.takeUp
        split
        · exact hb
        · split
          · exact hb
          · split
            · exact hb
            · split <;> (rename_i he; rw [Hub.asking, he] at taken; exact taken)

end

theorem urgentMotionsAreNotPaused_holds : urgentMotionsAreNotPaused := by
  intro s t r m b moving urgent ht
  have running : (s.hub.record b).state ≠ .paused := by rw [moving]; nofun
  have taken : exec (.move r m) s = .next { s with hub := (moveItem r m s.hub).1.answered 0x15#8 (moveItem r m s.hub).2 } := rfl
  obtain rfl := Host.Outcome.next.inj (taken.symm.trans ht)
  change ((moveItem r m s.hub).1.record b).state ≠ .paused
  unfold moveItem
  dsimp only
  repeat' split
  case h_4.isTrue => exact Hub.retarget_notPaused _ _ _ _ _ running
  case h_5 claimed =>
    refine Hub.newMotion_notPaused (fun same => ?_) _ _ _ _ running urgent
    rw [← same, moving] at claimed
    exact nomatch claimed
  all_goals exact running

/-- Settles O24. -/
theorem moveIsRefusedEarly : Obligations.MoveIsRefusedEarly :=
  ⟨moveChecksItsRequester_holds, moveTestsItsValues_holds, moveIsRefusedAtItsSteps_holds, retargetIsRefused_holds,
    urgentMotionsAreNotPaused_holds⟩

end Sys2Proof.Machine

/-! ## The ends of motion at a sample

The stops and the arrivals of a sample are ends of motions of different axes, each MOVING before; what such ends make of the part is
said once, in `Hub.Ended`. -/

namespace Sys2Proof.Machine

open Says

/-! ### Several ends, each with its own cause -/

/-- What the ends of these MOVING axes make of a part (R35, R75). -/
structure Hub.Ended (h k : Hub) (ends : List (Axis × EndCause)) : Prop where
  record : ∀ a c, (a, c) ∈ ends →
    k.record a = { h.record a with state := .claimed, lease := h.claimLease, lastEnd := c, flow := 0 }
  others : ∀ a, a ∉ ends.map Prod.fst → k.record a = h.record a
  valves : ∀ a, k.claims.valves.get a = if a ∈ ends.map Prod.fst then .off else h.claims.valves.get a
  grantOrder : k.arbiter.grantOrder = h.arbiter.grantOrder.filter (fun a => a ∉ ends.map Prod.fst)
  queue : k.arbiter.queue = h.arbiter.queue
  tracker : k.tracker = h.tracker
  sampler : k.sampler = h.sampler
  settings : k.settings = h.settings
  enable : ∀ r, (k.notices.get r).enable = (h.notices.get r).enable
  posted : ∀ a, a ∈ ends.map Prod.fst → ∀ r, r ∈ (h.record a).holder.toList ++ [.ct] → posted k (.axis a) r
  keeps : h.KeepsPosted k

section
variable {h k l : Hub} {a : Axis} {c : EndCause} {ends rest : List (Axis × EndCause)}

theorem Hub.ended_nil (h : Hub) : h.Ended h [] where
  record _ _ hp := nomatch hp
  others _ _ := rfl
  valves _ := rfl
  grantOrder := (List.filter_eq_self.mpr fun _ _ => rfl).symm
  queue := rfl
  tracker := rfl
  sampler := rfl
  settings := rfl
  enable _ := rfl
  posted _ ha := nomatch ha
  keeps _ _ hp := hp

/-- One end of a MOVING axis, and the others after it. -/
theorem Hub.Ended.cons (hk : (h.endMotion a c).Ended k ends) (moving : (h.record a).state = .moving)
    (new : a ∉ ends.map Prod.fst) : h.Ended k ((a, c) :: ends) := by
  have other {b : Axis} (hb : b ≠ a) : (h.endMotion a c).record b = h.record b := by
    rw [Hub.record_endMotion, if_neg hb]
  have self : (h.endMotion a c).record a =
      { h.record a with state := .claimed, lease := h.claimLease, lastEnd := c, flow := 0 } := by
    rw [Hub.record_endMotion, if_pos rfl, if_pos moving]
  have mem (b : Axis) : b ∈ ((a, c) :: ends).map Prod.fst ↔ b = a ∨ b ∈ ends.map Prod.fst := by simp
  refine ⟨fun b d hd => ?_, fun b hb => ?_, fun b => ?_, ?_, ?_, ?_, ?_, ?_, fun r => ?_, fun b hb r hr => ?_, ?_⟩
  · rcases List.mem_cons.mp hd with e | hd
    · obtain ⟨rfl, rfl⟩ := Prod.mk.inj e
      exact (hk.others b new).trans self
    · have hb : b ≠ a := fun e => new (e ▸ List.mem_map_of_mem (f := Prod.fst) hd)
      exact (hk.record b d hd).trans (by rw [other hb]; simp [Hub.claimLease])
  · obtain ⟨hb, left⟩ := not_or.mp (mt (mem b).mpr hb)
    exact (hk.others b left).trans (other hb)
  · rw [hk.valves, Hub.endMotion_valves, Hub.undoMotion_valves, if_pos moving, PerAxis.get_set]
    simp only [mem]
    split <;> split <;> simp_all
  · rw [hk.grantOrder, Hub.endMotion_arbiter, Hub.undoMotion_arbiter, moving, List.filter_filter]
    simp only [mem, not_or]
    refine List.filter_congr fun b _ => ?_
    simp [Bool.and_comm]
  · rw [hk.queue, Hub.endMotion_arbiter, Hub.undoMotion_arbiter, moving]
  · rw [hk.tracker]; simp
  · rw [hk.sampler]; simp
  · rw [hk.settings, Hub.endMotion_settings]
  · rw [hk.enable, Hub.endMotion_notices]; exact (Hub.postTo_get _ _ _ r).2
  · have first : r ∈ (h.record a).holder.toList ++ [.ct] → Says.posted k (.axis a) r := fun hr => by
      refine hk.keeps _ _ ?_
      rw [Says.posted, Hub.endMotion_notices]
      exact posted_of_mem h (.axis a) hr
    by_cases e : b = a
    · subst e; exact first hr
    · exact hk.posted b (((mem b).mp hb).resolve_left e) r (other e ▸ hr)
  · exact (Hub.keepsPosted_endMotion a c).trans hk.keeps

/-- The ends of different MOVING axes, applied one after another. -/
theorem Hub.applyStops_ended (apart : (ends.map Prod.fst).Nodup) (moving : ∀ p ∈ ends, (h.record p.1).state = .moving) :
    h.Ended (h.applyStops ends) ends := by
  induction ends generalizing h with
  | nil => exact h.ended_nil
  | cons p ends ih =>
    rw [List.map_cons, List.nodup_cons] at apart
    obtain ⟨new, apart⟩ := apart
    refine Hub.Ended.cons (ih apart fun q hq => ?_) (moving p List.mem_cons_self) new
    have hne : q.1 ≠ p.1 := fun e => new (e ▸ List.mem_map_of_mem (f := Prod.fst) hq)
    rw [Hub.record_endMotion, if_neg hne]
    exact moving q (List.mem_cons_of_mem _ hq)

end

/-! ### The ends a sample decides -/

section
variable {h before : Hub} {a : Axis}

/-- The arrivals of a sample: the axes still MOVING at their targets (R73). -/
def Hub.arrivals (h before : Hub) : List Axis := Axis.list.filter (h.applyStops (h.sampleStops before)).arrived

/-- All the ends of a sample, the stops first (R35, R74). -/
def Hub.sampleEnds (h before : Hub) : List (Axis × EndCause) :=
  h.sampleStops before ++ (h.arrivals before).map (·, .arrived)

/-- The evaluation of a sample applies its ends, and one service follows if there are any (R74, R90). -/
theorem Hub.evaluate_eq (h before : Hub) : h.evaluate before =
    if h.sampleEnds before = [] then h.applyStops (h.sampleEnds before) else (h.applyStops (h.sampleEnds before)).service := by
  have ends : h.applyStops (h.sampleEnds before) =
      (h.arrivals before).foldl (fun h a => h.endMotion a .arrived) (h.applyStops (h.sampleStops before)) := by
    rw [Hub.sampleEnds, Hub.applyStops, List.foldl_append, List.foldl_map]; rfl
  have none : ((h.sampleStops before).isEmpty && (h.arrivals before).isEmpty) = true ↔ h.sampleEnds before = [] := by
    simp [Hub.sampleEnds, List.isEmpty_iff]
  rw [ends]
  by_cases e : h.sampleEnds before = []
  · rw [if_pos e]; exact if_pos (none.mpr e)
  · rw [if_neg e]; exact if_neg (mt none.mp e)

theorem Hub.mem_sampleStops {c : EndCause} : (a, c) ∈ h.sampleStops before ↔ h.sampleStop before a = some c := by
  simp only [Hub.sampleStops, List.mem_filterMap, Option.map_eq_some_iff, Prod.mk.injEq]
  exact ⟨fun ⟨b, _, d, hd, hb, hc⟩ => by rw [← hb, hd, hc], fun hs => ⟨a, mem_axisList a, c, hs, rfl, rfl⟩⟩

theorem Hub.sampleStops_nodup (h before : Hub) : ((h.sampleStops before).map Prod.fst).Nodup := by
  have names : (h.sampleStops before).map Prod.fst = Axis.list.filter (fun a => (h.sampleStop before a).isSome) := by
    rw [Hub.sampleStops]
    generalize Axis.list = l
    induction l with
    | nil => rfl
    | cons b l ih =>
      rw [List.filterMap_cons, List.filter_cons]
      cases hs : h.sampleStop before b
      · exact ih
      · exact congrArg (List.cons b) ih
  rw [names]
  exact List.Nodup.filter _ (by decide)

/-- An arrival stands on the record, the values of the sample and the tolerance (R73). -/
theorem Hub.arrived_congr {k : Hub} (record : k.record a = h.record a) (sampler : k.sampler = h.sampler)
    (params : k.params = h.params) : k.arrived a = h.arrived a := by
  unfold Hub.arrived Hub.sense
  rw [record, sampler, params]

/-- What the stops leave: an axis that is stopped does not arrive, another arrives by its own record (R73). -/
theorem Hub.mem_arrivals : a ∈ h.arrivals before ↔ h.sampleStop before a = none ∧ h.arrived a = true := by
  have stopped := Hub.applyStops_ended (h.sampleStops_nodup before) fun p hp => MotionInvariant.sampleStops_moving h before p hp
  rw [Hub.arrivals, List.mem_filter, and_iff_right (mem_axisList a)]
  cases hs : h.sampleStop before a with
  | some c =>
    have record := stopped.record a c (Hub.mem_sampleStops.mpr hs)
    simp [Hub.arrived, record]
  | none =>
    have unnamed : a ∉ (h.sampleStops before).map Prod.fst := fun hm => by
      obtain ⟨p, hp, rfl⟩ := List.mem_map.mp hm
      exact nomatch hs.symm.trans (Hub.mem_sampleStops.mp hp)
    have record := stopped.others a unnamed
    have params : (h.applyStops (h.sampleStops before)).params = h.params := congrArg Settings.params stopped.settings
    rw [Hub.arrived_congr record stopped.sampler params]
    simp

/-- The end of an axis at a sample: a stop, or an arrival when there is none (R73). -/
def Hub.sampleEnd (h before : Hub) (a : Axis) : Option EndCause :=
  match h.sampleStop before a with
  | some c => some c
  | none => if h.arrived a then some .arrived else none

theorem Hub.mem_sampleEnds {c : EndCause} : (a, c) ∈ h.sampleEnds before ↔ h.sampleEnd before a = some c := by
  have arrival : (a, c) ∈ (h.arrivals before).map (·, EndCause.arrived) ↔ a ∈ h.arrivals before ∧ c = .arrived := by
    simp only [List.mem_map, Prod.mk.injEq]
    exact ⟨fun ⟨b, hb, e, hc⟩ => ⟨e ▸ hb, hc.symm⟩, fun ⟨ha, hc⟩ => ⟨a, ha, rfl, hc.symm⟩⟩
  rw [Hub.sampleEnds, List.mem_append, Hub.mem_sampleStops, arrival, Hub.mem_arrivals, Hub.sampleEnd]
  cases h.sampleStop before a with
  | some d => simp
  | none => cases h.arrived a <;> simp [eq_comm]

theorem Hub.sampleEnds_names : a ∈ (h.sampleEnds before).map Prod.fst ↔ h.sampleEnd before a ≠ none := by
  rw [Option.ne_none_iff_exists']
  simp only [List.mem_map, ← Hub.mem_sampleEnds]
  exact ⟨fun ⟨⟨b, c⟩, hp, e⟩ => ⟨c, e ▸ hp⟩, fun ⟨c, hp⟩ => ⟨(a, c), hp, rfl⟩⟩

theorem Hub.sampleEnds_nodup (h before : Hub) : ((h.sampleEnds before).map Prod.fst).Nodup := by
  have arrivals : ((h.arrivals before).map (·, EndCause.arrived)).map Prod.fst = h.arrivals before := by
    rw [List.map_map]; exact List.map_id _
  rw [Hub.sampleEnds, List.map_append, arrivals]
  refine List.nodup_append.mpr ⟨h.sampleStops_nodup before, List.Nodup.filter _ (by decide), fun b hb c hc e => ?_⟩
  obtain ⟨p, hp, rfl⟩ := List.mem_map.mp hb
  have stop := Hub.mem_sampleStops.mp hp
  rw [e, (Hub.mem_arrivals.mp hc).1] at stop
  exact nomatch stop

/-- Only a MOVING axis ends at a sample. -/
theorem Hub.sampleEnd_moving (he : h.sampleEnd before a ≠ none) : (h.record a).state = .moving := by
  unfold Hub.sampleEnd at he
  split at he
  · rename_i c hc
    exact MotionInvariant.sampleStops_moving h before (a, c) (Hub.mem_sampleStops.mpr hc)
  · by_contra still
    simp [Hub.arrived, still] at he

end

/-! ### The ends by their rules -/

section
variable {s : State} {h k : Hub} {a : Axis}

theorem Hub.changedFrom_iff (h before : Hub) (a : Axis) : h.changedFrom before a = true ↔
    (h.sense a).zone ≠ (before.sense a).zone ∨ (h.sense a).valid ≠ (before.sense a).valid := by
  simp [Hub.changedFrom]

theorem ZoneType.forbids_iff (g : ZoneType) (d : Direction) :
    g.forbids d = true ↔ (g = .highEnd ∧ d = .extend) ∨ (g = .lowEnd ∧ d = .retract) := by
  cases g <;> cases d <;> simp [ZoneType.forbids]

theorem Hub.slopeOk_eq_false_iff (h : Hub) : h.slopeOk = false ↔
    h.sampler.sampledSlopeValid = false ∨ h.params.slopeLimit < h.sampler.sampledSlope.natAbs := by
  rw [Hub.slopeOk, Bool.and_eq_false_iff, decide_eq_false_iff_not, Nat.not_le]

/-- The stop a sample decides, in the order of precedence of its causes (R29, R31 to R35). -/
theorem Hub.sampleStop_eq (h before : Hub) (a : Axis) (moving : (h.record a).state = .moving) : h.sampleStop before a =
    if h.changedFrom before a = true ∧ (h.sense a).valid = false then some .sensor
    else if h.changedFrom before a = true ∧ (h.currentEntry a).kind.forbids (h.record a).direction = true then some .limit
    else if h.blockedByNeighbour before a = true then some .blocked
    else if a = .tilt ∧ (h.record a).direction = .extend ∧ h.slopeOk = false then some .slope
    else none := by
  simp only [Hub.sampleStop, moving, ne_eq, not_true_eq_false, if_false, Bool.and_eq_true, Bool.not_eq_true']

/-- A MOVING axis has arrived (R73). -/
theorem Hub.arrived_iff (h : Hub) (a : Axis) (moving : (h.record a).state = .moving) : h.arrived a = true ↔
    ∃ g, (h.record a).target = .to g ∧
      if a = .ring then (h.sense a).valid = true ∧ circularDistance (h.sense a).position g ≤ h.params.tolerance.get a
      else if (h.record a).direction = .extend then g ≤ (h.sense a).position + h.params.tolerance.get a
      else (h.sense a).position ≤ g + h.params.tolerance.get a := by
  rw [Hub.arrived, moving]
  cases ht : (h.record a).target with
  | run => simp
  | _ g =>
    by_cases ha : a = .ring
    · simp [ha]
    · cases hd : (h.record a).direction <;> simp [ha]

/-- The record after a sample, in terms of the end it decides. -/
theorem Says.afterSample_eq (record : h.record a = s.hub.record a) (params : h.params = s.hub.params) :
    afterSample s h a =
      match h.sampleEnd s.hub a with
      | some c => kept s (s.hub.record a) c
      | none => s.hub.record a := by
  by_cases moving : (s.hub.record a).state = .moving
  · have changed (b : Axis) : ((h.sense b).zone ≠ (s.hub.sense b).zone ∨ (h.sense b).valid ≠ (s.hub.sense b).valid) ↔
        h.changedFrom s.hub b = true := (h.changedFrom_iff s.hub b).symm
    have blocked : (∃ b ∈ Axis.list, b ≠ a ∧ h.changedFrom s.hub b = true ∧
        ((h.currentEntry b).allow.towards b a).contains (s.hub.record a).direction = false) ↔
        h.blockedByNeighbour s.hub a = true := by
      rw [Hub.blockedByNeighbour, record, List.any_eq_true]
      simp [and_assoc]
    have slope : (h.sampler.sampledSlopeValid = false ∨ s.hub.params.slopeLimit < h.sampler.sampledSlope.natAbs) ↔
        h.slopeOk = false := by rw [h.slopeOk_eq_false_iff, params]
    have stop := h.sampleStop_eq s.hub a (record ▸ moving)
    have arrived := h.arrived_iff a (record ▸ moving)
    rw [record] at stop
    rw [record, params] at arrived
    simp only [afterSample, moving, ne_eq, not_true_eq_false, if_false, Hub.sampleEnd, stop]
    simp only [ne_eq] at changed blocked
    simp only [List.any_eq_true, decide_eq_true_eq, changed, blocked, slope, ← ZoneType.forbids_iff]
    by_cases c1 : h.changedFrom s.hub a = true ∧ (h.sense a).valid = false
    · simp only [if_pos c1]
    by_cases c2 : h.changedFrom s.hub a = true ∧ (h.currentEntry a).kind.forbids (s.hub.record a).direction = true
    · simp only [if_neg c1, if_pos c2]
    by_cases c3 : h.blockedByNeighbour s.hub a = true
    · simp only [if_neg c1, if_neg c2, if_pos c3]
    by_cases c4 : a = .tilt ∧ (s.hub.record a).direction = .extend ∧ h.slopeOk = false
    · simp only [if_neg c1, if_neg c2, if_neg c3, if_pos c4]
    simp only [if_neg c1, if_neg c2, if_neg c3, if_neg c4]
    cases ht : (s.hub.record a).target with
    | run => simp [show ¬ h.arrived a = true from fun e => by simpa [ht] using arrived.mp e]
    | _ g =>
      simp only [ht, Target.to.injEq, exists_eq_left'] at arrived
      by_cases ha : a = .ring
      · subst ha
        simp only [if_true] at arrived
        simp only [if_true, ← arrived]
        split <;> rfl
      · simp only [if_neg ha] at arrived ⊢
        split <;> (rename_i hd; simp only [hd, if_true, if_false] at arrived; simp only [← arrived]; split <;> rfl)
  · have none : h.sampleEnd s.hub a = none := by
      by_contra some
      exact moving (record ▸ Hub.sampleEnd_moving some)
    rw [none]
    simp only [afterSample, ne_eq, moving, not_false_eq_true, if_true]

/-- The record after a sample stands on the values of the sample and on the map. -/
theorem Says.afterSample_congr (sampler : k.sampler = h.sampler) (map : k.map = h.map) (s : State) (a : Axis) :
    afterSample s k a = afterSample s h a := by
  cases h
  cases k
  obtain rfl := sampler
  obtain rfl := map
  rfl

end

/-! ### The sample -/

/-- The agreement of claim table and flow pool stands on these, the parameters and the mode. -/
theorem Hub.motionAgrees_of_parts {h k : Hub} (claims : k.claims = h.claims) (arbiter : k.arbiter = h.arbiter)
    (params : k.params = h.params) (control : k.control = h.control) (hm : h.motionAgrees) : k.motionAgrees := by
  cases h
  cases k
  obtain rfl := claims
  obtain rfl := arbiter
  obtain rfl := params
  obtain rfl := control
  exact hm

theorem Hub.taken_settings (h : Hub) (volts : Voltages) : (h.taken volts).settings = h.settings := by
  unfold Hub.taken
  split
  · simp [Hub.settings, Hub.postAll, Hub.capture]
  · rfl

theorem Hub.taken_rest (h : Hub) (volts : Voltages) :
    (h.taken volts).claims = h.claims ∧ (h.taken volts).arbiter = h.arbiter ∧ (h.taken volts).tracker = h.tracker ∧
      ∀ r, ((h.taken volts).notices.get r).enable = (h.notices.get r).enable := by
  unfold Hub.taken
  split
  · exact ⟨rfl, rfl, rfl, fun r => (Hub.postTo_get _ _ _ r).2⟩
  · exact ⟨rfl, rfl, rfl, fun _ => rfl⟩

theorem oneServiceFollowsTheEnds_holds : oneServiceFollowsTheEnds := by
  intro s volts hm
  obtain ⟨claims, arbiter, tracker, enable⟩ := s.hub.taken_rest volts
  have settings := s.hub.taken_settings volts
  have evaluated := s.hub.sample_eq volts
  generalize s.hub.taken volts = h at claims arbiter tracker enable settings evaluated
  have record (a : Axis) : h.record a = s.hub.record a := congrArg (fun c : ClaimTable => c.records.get a) claims
  have params : h.params = s.hub.params := congrArg Settings.params settings
  have agrees : h.motionAgrees := by
    have control : h.control = s.hub.control := congrArg Settings.control settings
    exact Hub.motionAgrees_of_parts claims arbiter params control hm
  have moving (p : Axis × EndCause) (hp : p ∈ h.sampleEnds s.hub) : (h.record p.1).state = .moving :=
    Hub.sampleEnd_moving (Hub.sampleEnds_names.mp (List.mem_map_of_mem (f := Prod.fst) hp))
  have ended := Hub.applyStops_ended (h.sampleEnds_nodup s.hub) moving
  have kAgrees : (h.applyStops (h.sampleEnds s.hub)).motionAgrees :=
    motionAgrees_motionInvariant.endMotions _ agrees fun p hp => by rw [moving p hp]; nofun
  rw [Hub.evaluate_eq] at evaluated
  generalize h.applyStops (h.sampleEnds s.hub) = k at ended evaluated kAgrees
  have kParams : k.params = s.hub.params := (congrArg Settings.params ended.settings).trans params
  have after (a : Axis) : k.record a = afterSample s k a := by
    rw [afterSample_congr ended.sampler (congrArg Settings.map ended.settings), afterSample_eq (record a) params]
    cases he : h.sampleEnd s.hub a with
    | some c =>
      rw [ended.record a c (Hub.mem_sampleEnds.mpr he), record, Hub.claimLease, params]
      rfl
    | none => exact (ended.others a fun hn => Hub.sampleEnds_names.mp hn he).trans (record a)
  have stopped (a : Axis) : a ∈ (h.sampleEnds s.hub).map Prod.fst ↔
      (s.hub.record a).state = .moving ∧ (k.record a).state ≠ .moving := by
    constructor
    · intro hn
      obtain ⟨⟨b, c⟩, hp, e⟩ := List.mem_map.mp hn
      obtain rfl : b = a := e
      exact ⟨record b ▸ moving _ hp, by rw [ended.record b c hp]; nofun⟩
    · rintro ⟨before, now⟩
      by_contra hn
      rw [ended.others a hn, record] at now
      exact now before
  refine ⟨{ s with hub := s.hub.sample volts }, k, rfl, ?_, after, fun a => ?_, ?_, ?_, ?_, fun a before now => ?_, ?_, ?_, ?_, ?_⟩
  · change _ = (s.hub.sample volts).sampler
    rw [evaluated]
    split <;> simp
  · rw [ended.valves, claims]
    simp only [stopped]
  · rw [ended.grantOrder, arbiter]
    refine List.filter_congr fun a ha => ?_
    have before := (hm.granted_iff a).mp ha
    simp [stopped, before]
  · obtain ⟨-, -, ⟨-, -, flow, -⟩, -⟩ := kAgrees
    rw [flow]
    exact congrArg List.sum (List.map_congr_left fun a _ => by rw [Hub.demand, kParams])
  · rw [ended.queue, arbiter]
  · have told := ended.posted a ((stopped a).mpr ⟨before, now⟩)
    rw [record] at told
    exact ⟨told .ct (by simp), fun r hr => told r (by simp [hr])⟩
  · rw [ended.tracker, tracker]
  · exact settingsKept_of_settings s k (ended.settings.trans settings) fun r => (ended.enable r).trans (enable r)
  · rintro ⟨a, both⟩
    refine evaluated.trans (if_neg fun none => ?_)
    have named := (stopped a).mpr both
    rw [none] at named
    exact nomatch named
  · intro still
    refine evaluated.trans (if_pos ?_)
    refine List.eq_nil_iff_forall_not_mem.mpr fun p hp => ?_
    obtain ⟨before, now⟩ := (stopped p.1).mp (List.mem_map_of_mem (f := Prod.fst) hp)
    exact now (still p.1 before)

/-- An axis without an entry keeps, through the service, what the ends of the sample left it (R90, R91). -/
theorem sampleEndsMotions_holds : Says.sampleEndsMotions := by
  intro s volts hm
  obtain ⟨t, k, taken, sampler, after, -, -, -, queue, -, -, settings, served, unserved⟩ := oneServiceFollowsTheEnds_holds s volts hm
  refine ⟨t, taken, fun a hw hp => ?_⟩
  have outcome : t.hub = k.service ∨ t.hub = k := by
    by_cases some : ∃ a, (s.hub.record a).state = .moving ∧ (k.record a).state ≠ .moving
    · exact .inl (served some)
    · exact .inr (unserved fun a ha => by_contra fun hn => some ⟨a, ha, hn⟩)
  have map : t.hub.map = k.map := by rcases outcome with e | e <;> simp [e]
  have entries (e : WaitEntry) (he : e ∈ k.arbiter.queue) : e.axis ≠ a := fun same =>
    ((hm.entry_iff a).mp ⟨e, queue ▸ he, same⟩).elim hw hp
  have record : t.hub.record a = k.record a := by
    rcases outcome with e | e
    · rw [e]; exact (Hub.service_of_no_entry k a entries).1.1
    · rw [e]
  rw [record, after, afterSample_congr sampler.symm map]

/-- Settles O8: the ends of a sample are those of its causes in their order, and one service follows them. -/
theorem sampleEndsMotions : Obligations.SampleEndsMotions := ⟨sampleEndsMotions_holds, oneServiceFollowsTheEnds_holds⟩

end Sys2Proof.Machine

/-! ## The bale tracker: logging, timers and the table switch -/

namespace Sys2Proof.Machine

open Says

/-! ### A record logged -/

/-- A record taken out of its place into the log, with BALE_MOVED to all (R121). -/
def Says.movedToLog (s : State) (p : Place) (b : Bale) (planned : Bool) : Hub :=
  { s.hub with tracker := { s.hub.tracker.put p none with
      log := appended s.hub.tracker.log (intoLog s b planned) } }.postTo .baleMoved [.ch, .wr, .ct]

/-- LOG_HIGH goes to CT when 23 records become 24 (R121). -/
theorem Says.logBale_eq (s : State) (p : Place) (b : Bale) (planned : Bool) : s.hub.logBale p b planned =
    if s.hub.tracker.log.length = 23 then (movedToLog s p b planned).postTo .logHigh [.ct] else movedToLog s p b planned := by
  have passes : (s.hub.tracker.log.length < Config.logHigh ∧
      Config.logHigh ≤ (appended s.hub.tracker.log (intoLog s b planned)).length) ↔ s.hub.tracker.log.length = 23 := by
    simp only [Config.logHigh, appended, List.length_append, List.length_singleton]
    split <;> simp <;> omega
  have kept : (if decide (Config.logCapacity ≤ s.hub.tracker.log.length) = true then s.hub.tracker.log.drop 1
      else s.hub.tracker.log) = if 32 ≤ s.hub.tracker.log.length then s.hub.tracker.log.drop 1 else s.hub.tracker.log := by
    by_cases full : 32 ≤ s.hub.tracker.log.length <;> simp [Config.logCapacity, full]
  simp only [← passes]
  unfold Hub.logBale
  dsimp only
  rw [kept]
  rfl

section
variable (s : State) (p : Place) (b : Bale) (planned : Bool)

theorem Says.movedToLog_tracker : (movedToLog s p b planned).tracker = { s.hub.tracker.put p none with
    log := appended s.hub.tracker.log (intoLog s b planned) } := Hub.postTo_tracker ..

theorem Says.logBale_tracker : (s.hub.logBale p b planned).tracker = { s.hub.tracker.put p none with
    log := appended s.hub.tracker.log (intoLog s b planned) } := by
  rw [logBale_eq, apply_ite Hub.tracker, Hub.postTo_tracker, ite_self, movedToLog_tracker]

theorem Says.posted_logBale_baleMoved (r : Role) : posted (s.hub.logBale p b planned) .baleMoved r := by
  have moved : posted (movedToLog s p b planned) .baleMoved r := posted_postAll _ _ r
  rw [logBale_eq]
  split
  · exact Hub.keepsPosted_postTo _ _ _ r moved
  · exact moved

/-- LOG_HIGH is posted by a log that grows from 23 to 24 records, and by no other (R121). -/
theorem Says.posted_logBale_logHigh (r : Role) : posted (s.hub.logBale p b planned) .logHigh r ↔
    posted s.hub .logHigh r ∨ (s.hub.tracker.log.length = 23 ∧ r = .ct) := by
  have moved : posted (movedToLog s p b planned) .logHigh r ↔ posted s.hub .logHigh r := by
    refine (posted_postTo _ .baleMoved .logHigh _ r).trans (or_iff_left fun other => ?_)
    exact absurd other.2 (by decide)
  rw [logBale_eq]
  split
  · rename_i high
    rw [posted_postTo, moved]
    simp [high, Notice.bit_self]
  · rename_i low
    rw [moved]
    simp [low]

end

/-! ### The transit timer, the stopwatch and the field clock -/

theorem transitTimerRunsOut_holds : transitTimerRunsOut := by
  intro s left b ht hb
  let k : State := { s with hub := { s.hub with tracker := { s.hub.tracker with transit := none, stopwatch := none } } }
  have taken : s.hub.transitTimeout = (k.hub.logBale .cradle b false).postAll .sensorFault := by
    simp only [Hub.transitTimeout, ht, hb]
    rfl
  have high (r : Role) : posted ((k.hub.logBale .cradle b false).postAll .sensorFault) .logHigh r ↔
      posted s.hub .logHigh r ∨ (s.hub.tracker.log.length = 23 ∧ r = .ct) := by
    refine ((posted_postTo _ .sensorFault .logHigh _ r).trans (or_iff_left fun other => ?_)).trans
      (posted_logBale_logHigh k .cradle b false r)
    exact absurd other.2 (by decide)
  refine ⟨_, congrArg (took s) taken, ?_, fun r => ⟨?_, posted_postAll _ _ r⟩, fun h23 => ?_, fun h23 r => ?_, ?_, ?_, ?_⟩
  · exact (Hub.postTo_tracker ..).trans (logBale_tracker k .cradle b false)
  · exact Hub.keepsPosted_postTo _ _ _ r (posted_logBale_baleMoved k .cradle b false r)
  · exact (high .ct).mpr (.inr ⟨h23, rfl⟩)
  · exact (high r).trans (or_iff_left fun other => h23 other.1)
  · exact (Hub.postTo_claims ..).trans (Hub.logBale_claims ..)
  · exact (Hub.postTo_arbiter ..).trans (Hub.logBale_arbiter ..)
  · exact (Hub.postTo_counter ..).trans (Hub.logBale_counter ..)

/-- The count of a bale that waits at least as long as the limit stands (log 4). -/
theorem Hub.tableLate_atLimit (h : Hub) {w : Stopwatch} {b : Bale} {n : Nat} (hw : h.tracker.stopwatch = some w)
    (hb : h.tracker.cradle = some b) (hn : b.cradleWait = some n) (hl : w.limit ≤ n) : h.tableLate = h.lateCheck := by
  have stands : b.waitAtLeast w.limit = b := by
    have most : Nat.max n w.limit = n := Nat.max_eq_left hl
    rw [Bale.waitAtLeast, hn, Option.getD_some, most, ← hn]
  have same : { h with tracker := { h.tracker with cradle := h.tracker.cradle.map (Bale.waitAtLeast w.limit) } } = h := by
    rw [hb, Option.map_some, stands, ← hb]
  unfold Hub.tableLate
  split
  · rename_i v running
    cases hw.symm.trans running
    rw [same]
  · rename_i stopped
    exact nomatch hw.symm.trans stopped

theorem stopwatchReachesItsLimit_holds : stopwatchReachesItsLimit := by
  intro s w b n hw hb hn hl hf
  have wait : w.limit ≤ b.cradleWait.getD 0 := by rw [hn]; exact hl
  refine congrArg (took s) ((s.hub.tableLate_atLimit hw hb hn hl).trans ?_)
  simp only [Hub.lateCheck, hw, hb, if_pos (And.intro wait hf)]
  rfl

theorem aLateBaleIsNotPostedAgain_holds : aLateBaleIsNotPostedAgain := by
  intro s w b n hw hb hn hl hf
  refine congrArg (took s) ((s.hub.tableLate_atLimit hw hb hn hl).trans (s.hub.lateCheck_quiet fun v c hv hc late => ?_))
  rw [hb] at hc
  cases hc
  exact nomatch hf.symm.trans late.2

/-- Settles O6. -/
theorem trackerTimersAndClock : Obligations.TrackerTimersAndClock :=
  ⟨transitTimerRunsOut_holds, stopwatchReachesItsLimit_holds, aLateBaleIsNotPostedAgain_holds, fun _ => rfl⟩

/-! ### The table switch becomes inactive -/

/-- The end of a MOVING axis is one update, when it has no entry (R75). -/
theorem Hub.endMotion_moving (h : Hub) (a : Axis) (c : EndCause) (hq : h.queueAgrees) (hm : (h.record a).state = .moving) :
    h.endMotion a c =
      endedHub h a { h.record a with state := .claimed, lease := h.claimLease, lastEnd := c, flow := 0 } := by
  have unqueued : h.arbiter.queue.filter (fun e => e.axis ≠ a) = h.arbiter.queue := by
    obtain ⟨-, entries, -⟩ := hq
    refine List.filter_eq_self.mpr fun e he => ?_
    have none : e.axis ≠ a := fun same => by
      rcases (entries a).mp ⟨e, he, same⟩ with w | w <;> exact nomatch hm.symm.trans w
    simpa using none
  have undone : h.undoMotion a = { h with
      claims := ⟨h.claims.records.set a { h.record a with flow := 0 }, h.claims.valves.set a .off⟩
      arbiter := ⟨h.arbiter.inUse - (h.record a).flow, h.arbiter.grantOrder.filter (· ≠ a),
        h.arbiter.queue.filter (fun e => e.axis ≠ a)⟩ } := by
    rw [unqueued, Hub.undoMotion, hm]
    rfl
  simp only [Hub.endMotion, undone, Hub.postAxis, Hub.setRecord, Hub.record, PerAxis.get_set_self, PerAxis.set_set]
  rfl

/-- What the stop of the ring keeps, an unplanned removal keeps (R79). -/
theorem Hub.stopRingUnplanned_induction (P : Hub → Prop) (stop : ∀ h, P h → P (Hub.endMotion h .ring .sensor).service) (h : Hub)
    (hp : P h) : P h.stopRingUnplanned := by
  unfold Hub.stopRingUnplanned
  split
  · exact stop h hp
  · exact hp

/-- The part with the level of the table switch inactive (R114). -/
def Says.tableUnloaded (s : State) : State := { s with hub := { s.hub with inputs := { s.hub.inputs with tableLoad := false } } }

/-- The bale taken from the table is logged, and an unplanned removal stops the ring (R79, R114). -/
theorem Says.tableLoadInactive_eq (s : State) {b : Bale} (hb : s.hub.tracker.table = some b)
    (hg : Place.table.admits b.stage = true) : s.hub.tableLoadInactive =
      if b.stage = .dropping then (tableUnloaded s).hub.logBale .table b true
      else (((tableUnloaded s).hub.logBale .table b false).postAll .sensorFault).stopRingUnplanned := by
  unfold Hub.tableLoadInactive
  simp only [hb]
  rcases hs : b.stage
  case dropping | onTable | wrapping | wrapped => rfl
  case forming | binding | bound | ejecting | carried | dropped => rw [hs] at hg; exact nomatch hg

theorem tableLoadBecomesInactive_holds : tableLoadBecomesInactive := by
  intro s stages
  refine ⟨{ s with hub := s.hub.tableLoadInactive }, rfl, ?_⟩
  cases hb : s.hub.tracker.table with
  | none =>
    have ignored : s.hub.tableLoadInactive = (tableUnloaded s).hub := by
      simp only [Hub.tableLoadInactive, hb]; rfl
    dsimp only
    rw [ignored]
    exact ⟨rfl, hb, rfl, rfl, rfl⟩
  | some b =>
    have admitted : Place.table.admits b.stage = true := stages .table b hb
    have outcome := tableLoadInactive_eq s hb admitted
    let u := tableUnloaded s
    have log (planned : Bool) : appended s.hub.tracker.log (intoLog s b planned) =
        s.hub.tracker.log.drop (if 32 ≤ s.hub.tracker.log.length then 1 else 0) ++ [intoLog s b planned] := by
      unfold appended; split <;> rfl
    have tracker (planned : Bool) := logBale_tracker u .table b planned
    dsimp only
    by_cases hd : b.stage = .dropping
    · rw [if_pos hd] at outcome
      simp only [hd, decide_true]
      rw [outcome]
      refine ⟨Hub.logBale_inputs .., ?_, ?_, posted_logBale_baleMoved u .table b true, fun h23 => ?_,
        fun _ => ⟨Hub.logBale_claims .., Hub.logBale_arbiter ..⟩, nofun, nofun⟩
      · rw [tracker]; rfl
      · rw [tracker]; exact log true
      · exact (posted_logBale_logHigh u .table b true .ct).mpr (.inr ⟨h23, rfl⟩)
    · rw [if_neg hd] at outcome
      simp only [hd, decide_false]
      rw [outcome]
      let k := ((tableUnloaded s).hub.logBale .table b false).postAll .sensorFault
      have kTracker : k.tracker = { s.hub.tracker.put .table none with log := appended s.hub.tracker.log (intoLog s b false) } :=
        (Hub.postTo_tracker ..).trans (tracker false)
      have kept := Hub.stopRingUnplanned_induction
        (fun l => l.inputs = { s.hub.inputs with tableLoad := false } ∧ l.tracker.besideGrants = k.tracker.besideGrants ∧
          l.tracker.table.map (fun b => (b.film, b.flags)) = none ∧ k.KeepsPosted l)
        (fun l ⟨inputs, beside, table, posts⟩ => ⟨by simpa using inputs,
          (Hub.service_besideGrants _).trans ((congrArg Tracker.besideGrants (l.endMotion_tracker .ring .sensor)).trans beside),
          (Hub.service_tableParts _).trans (by rw [Hub.endMotion_tracker]; exact table),
          posts.trans ((Hub.keepsPosted_endMotion .ring .sensor).trans Hub.keepsPosted_service)⟩) k
        ⟨(Hub.postTo_inputs ..).trans (Hub.logBale_inputs ..), rfl, by rw [kTracker]; rfl, fun _ _ hp => hp⟩
      obtain ⟨inputs, beside, table, posts⟩ := kept
      have logged : k.stopRingUnplanned.tracker.log = k.tracker.log := congrArg (fun x => x.2.1) beside
      refine ⟨inputs, Option.map_eq_none_iff.mp table, ?_, fun r => posts _ r ?_, fun h23 => posts _ .ct ?_, nofun,
        fun _ r => posts _ r (posted_postAll _ _ r), fun _ hq hm => ?_⟩
      · exact logged.trans ((congrArg Tracker.log kTracker).trans (log false))
      · exact Hub.keepsPosted_postTo _ _ _ r (posted_logBale_baleMoved u .table b false r)
      · exact Hub.keepsPosted_postTo _ _ _ .ct ((posted_logBale_logHigh u .table b false .ct).mpr (.inr ⟨h23, rfl⟩))
      · have claims : k.claims = s.hub.claims := (Hub.postTo_claims ..).trans (Hub.logBale_claims ..)
        have arbiter : k.arbiter = s.hub.arbiter := (Hub.postTo_arbiter ..).trans (Hub.logBale_arbiter ..)
        have params : k.params = s.hub.params := (Hub.postTo_params ..).trans (Hub.logBale_params ..)
        have record (a : Axis) : k.record a = s.hub.record a := congrArg (fun c : ClaimTable => c.records.get a) claims
        have kQueue : k.queueAgrees := by simpa only [Hub.queueAgrees, arbiter, record] using hq
        have stopped : k.stopRingUnplanned = (k.endMotion .ring .sensor).service := if_pos (by rw [record]; exact hm)
        have left (e : WaitEntry) (he : e ∈ (k.endMotion .ring .sensor).arbiter.queue) : e.axis ≠ .ring := by
          rw [k.endMotion_moving .ring .sensor kQueue (by rw [record]; exact hm)] at he
          exact ((mem_endedHub_queue ..).mp he).2
        change k.stopRingUnplanned.record .ring = _
        rw [stopped, (Hub.service_of_no_entry _ .ring left).1.1, Hub.record_endMotion, if_pos rfl, record, if_pos hm,
          Hub.claimLease, params]
        rfl

theorem theTableBaleIsLogged_holds : theTableBaleIsLogged := by
  intro s b hb hg hq planned moved high faulted
  have logged : (tableUnloaded s).hub.logBale .table b planned = high := logBale_eq (tableUnloaded s) .table b planned
  refine congrArg (took s) ((tableLoadInactive_eq s hb hg).trans ?_)
  by_cases hd : b.stage = .dropping
  · have yes : planned = true := decide_eq_true hd
    rw [if_pos hd, if_pos yes, ← logged, yes]
  · have no : planned = false := decide_eq_false hd
    rw [if_neg hd, if_neg (by rw [no]; nofun)]
    have fault : ((tableUnloaded s).hub.logBale .table b false).postAll .sensorFault = faulted := by
      rw [← no, logged]; rfl
    have arbiter : faulted.arbiter = s.hub.arbiter := by
      rw [← fault]; exact (Hub.postTo_arbiter ..).trans (Hub.logBale_arbiter ..)
    have claims : faulted.claims = s.hub.claims := by
      rw [← fault]; exact (Hub.postTo_claims ..).trans (Hub.logBale_claims ..)
    have params : faulted.params = s.hub.params := by
      rw [← fault]; exact (Hub.postTo_params ..).trans (Hub.logBale_params ..)
    have record (a : Axis) : faulted.record a = s.hub.record a := congrArg (fun c : ClaimTable => c.records.get a) claims
    rw [fault, Hub.stopRingUnplanned, record]
    split
    · rename_i hm
      have queue : faulted.queueAgrees := by simpa only [Hub.queueAgrees, arbiter, record] using hq
      rw [faulted.endMotion_moving .ring .sensor queue (by rw [record]; exact hm), record, Hub.claimLease, params]
      rfl
    · rfl

/-- Settles O35. -/
theorem tableLoadBecomesInactive : Obligations.TableLoadBecomesInactive :=
  ⟨tableLoadBecomesInactive_holds, theTableBaleIsLogged_holds⟩

end Sys2Proof.Machine

/-! ## The bale requests -/

namespace Sys2Proof.Machine

open Says

/-! ### BALE_START (R101, R102) -/

/-- The number a new record receives is the first from the next one on that none holds (R101). -/
theorem Says.firstNumber_assigned (h : Hub) : firstNumber h h.tracker.assignedNumber := by
  refine ⟨fun free => ?_, freeBaleNumber_passesOver .., fun ⟨_, range⟩ bounded => h.tracker.assignedNumber_free range bounded⟩
  unfold Tracker.assignedNumber
  cases h.tracker.heldNumbers.length with
  | zero => rfl
  | succ fuel =>
    have absent : h.tracker.heldNumbers.contains h.tracker.nextNumber = false := by simpa using free
    simp only [freeBaleNumber, absent, Bool.false_eq_true, if_false]

/-- Settles O27. -/
theorem baleStartIsTaken : Obligations.BaleStartIsTaken := by
  intro s
  refine ⟨rfl, rfl, fun b hb => ?_, fun empty => ?_⟩
  · refine item_of_answer (f := baleStartItem .ch) ?_
    simp only [baleStartItem, Hub.gateAnswer, Tracker.at, hb]
    rfl
  · have taken : exec (.baleStart .ch) s = replied s 0x21#8 (s.hub.createBale .chamber .forming false) .ok
        (u16 s.hub.tracker.assignedNumber) := by
      refine item_of_answer (f := baleStartItem .ch) ?_
      simp only [baleStartItem, empty]
      rfl
    refine ⟨_, s.hub.tracker.assignedNumber, taken, ?_, firstNumber_assigned s.hub, fun r => posted_postAll _ _ r, rfl, ?_, ?_,
      ?_, ?_⟩
    · exact Hub.createBale_tracker ..
    · exact s.hub.createBale_claims .chamber .forming false
    · exact s.hub.createBale_arbiter .chamber .forming false
    · exact s.hub.createBale_counter .chamber .forming false
    · exact s.hub.createBale_params .chamber .forming false

/-! ### WRAP_START and FILM_RESET (R112, R138) -/

/-- GATE at a place that holds a record names the record (R102, R103, R112, R119). -/
theorem Hub.gateAnswer_some {h : Hub} {p : Place} {b : Bale} (hb : h.tracker.at p = some b) :
    h.gateAnswer p = (h, ⟨.gate, u16 b.number ++ u8 b.stage.code⟩) := by
  simp only [Hub.gateAnswer, hb]

theorem wrapStartIsTaken_holds : wrapStartIsTaken := by
  intro s r
  refine ⟨fun other => ?_, fun empty => ?_, fun b hb => ?_⟩
  · exact item_of_answer (f := wrapStartItem r) (if_pos other)
  · refine item_of_answer (f := wrapStartItem .wr) ?_
    simp only [wrapStartItem, Hub.gateAnswer, Tracker.at, empty]
    rfl
  · by_cases hg : b.stage = .onTable
    · rw [if_neg (not_not_intro hg)]
      refine item_of_answer (f := wrapStartItem .wr) ?_
      simp only [wrapStartItem, hb, if_pos hg]
      rfl
    · rw [if_pos hg]
      refine item_of_answer (f := wrapStartItem .wr) ?_
      simp only [wrapStartItem, hb, if_neg hg, Hub.gateAnswer_some (p := .table) hb]
      rfl

theorem argDispenser_eq (d : Byte) :
    argDispenser d = if 1 < d.toNat then none else if d.toNat = 0 then some .a else some .b := by
  unfold argDispenser
  split
  · rename_i zero; rw [zero]; rfl
  · rename_i one; rw [one]; rfl
  · rename_i notZero notOne
    exact (if_pos (Nat.one_lt_iff_ne_zero_and_ne_one.mpr ⟨notZero, notOne⟩)).symm

/-- FILM_RESET answers with the two states and the two inputs, each as a bit (R138). -/
theorem Hub.filmResetData_eq (h : Hub) : h.filmResetData =
    u8 ((if h.counter.dispenserA = .broken then 1 else 0) + (if h.counter.dispenserB = .broken then 2 else 0)
      + (if h.inputs.breakA then 4 else 0) + (if h.inputs.breakB then 8 else 0)) := by
  simp only [Hub.filmResetData, flagBit, beq_iff_eq]
  rfl

theorem filmResetIsTaken_holds : filmResetIsTaken := by
  intro s r d
  by_cases other : r ≠ .wr
  · rw [if_pos other]
    exact item_of_answer (f := filmResetItem r d) (if_pos other)
  · rw [if_neg other]
    by_cases above : 1 < d.toNat
    · rw [if_pos above]
      refine item_of_answer (f := filmResetItem r d) ?_
      simp only [filmResetItem, if_neg other, argDispenser_eq, if_pos above]
      rfl
    · rw [if_neg above]
      by_cases zero : d.toNat = 0
      · rw [if_pos zero]
        refine item_of_answer (f := filmResetItem r d) ?_
        simp only [filmResetItem, if_neg other, argDispenser_eq, if_neg above, if_pos zero, Hub.filmResetData_eq]
        rfl
      · rw [if_neg zero]
        refine item_of_answer (f := filmResetItem r d) ?_
        simp only [filmResetItem, if_neg other, argDispenser_eq, if_neg above, if_neg zero, Hub.filmResetData_eq]
        rfl

/-- Settles O29. -/
theorem wrappingBegins : Obligations.WrappingBegins := ⟨wrapStartIsTaken_holds, filmResetIsTaken_holds⟩

/-! ### BALE_NOTE (R118) -/

/-- Settles O30. -/
theorem baleNoteIsTaken : Obligations.BaleNoteIsTaken := by
  intro s v
  refine ⟨rfl, fun above => ?_, fun above => ?_, fun within => ?_, fun within => ?_⟩
  · exact item_of_answer (f := baleNoteItem .ch v) (if_pos above)
  · exact item_of_answer (f := baleNoteItem .wr v) (if_pos above)
  · cases hb : s.hub.tracker.chamber with
    | none =>
      refine item_of_answer (f := baleNoteItem .ch v) ?_
      simp only [baleNoteItem, if_neg (Nat.not_lt.mpr within), hb]
      rfl
    | some b =>
      refine item_of_answer (f := baleNoteItem .ch v) ?_
      simp only [baleNoteItem, if_neg (Nat.not_lt.mpr within), hb]
  · cases hb : s.hub.tracker.table with
    | none =>
      refine item_of_answer (f := baleNoteItem .wr v) ?_
      simp only [baleNoteItem, if_neg (Nat.not_lt.mpr within), hb]
      rfl
    | some b =>
      refine item_of_answer (f := baleNoteItem .wr v) ?_
      simp only [baleNoteItem, if_neg (Nat.not_lt.mpr within), hb]

/-! ### LOG_READ and LOG_DROP (R122, R123) -/

theorem logDropIsTaken_holds : logDropIsTaken := by
  intro s n
  refine ⟨rfl, rfl, ?_⟩
  by_cases refused : n.toNat < 1 ∨ 4 < n.toNat ∨ s.hub.tracker.log.length < n.toNat
  · rw [if_pos refused]
    refine item_of_answer (f := logDropItem .ct n) ?_
    simp only [logDropItem, if_pos refused]
    rfl
  · rw [if_neg refused, ← List.length_drop]
    refine item_of_answer (f := logDropItem .ct n) ?_
    simp only [logDropItem, if_neg refused]
    rfl

/-- Settles O32. -/
theorem logIsReadAndDropped : Obligations.LogIsReadAndDropped := ⟨fun _ => ⟨rfl, rfl, rfl⟩, logDropIsTaken_holds⟩

/-! ### The table switch becomes active (R110) -/

/-- Settles O34. -/
theorem tableLoadBecomesActive : Obligations.TableLoadBecomesActive := by
  intro s
  refine ⟨fun b hb hg empty => congrArg (took s) ?_, fun stuck => congrArg (took s) ?_⟩
  · simp only [Hub.tableLoadActive, hb, empty, if_pos hg]
    rfl
  · unfold Hub.tableLoadActive
    dsimp only
    split
    · rename_i b hb empty
      refine if_neg fun hg => ?_
      have carried : s.hub.tracker.stageAt .cradle = some .carried := by
        rw [Tracker.stageAt, Tracker.at, hb, ← hg]; rfl
      exact stuck.elim (fun no => no carried) (fun no => no empty)
    · rfl

/-! ### The net timers (R105, R129, R130) -/

/-- Settles O39. -/
theorem netTimersRunOut : Obligations.NetTimersRunOut := by
  intro s left b hb
  refine ⟨fun runs => congrArg (took s) ?_, fun runs => congrArg (took s) ?_⟩
  · simp only [Hub.netStartTimeout, runs, Hub.netFault, hb]
    rfl
  · simp only [Hub.netGapTimeout, runs, Hub.netFault, hb]
    rfl

end Sys2Proof.Machine

/-! ## FEED HOLD and the begin of binding -/

namespace Sys2Proof.Machine

open Says

/-! ### FEED HOLD evaluated (R117) -/

theorem Hub.feedHoldCondition_iff (h : Hub) : h.feedHoldCondition = true ↔ h.inputs.prechamberFull = true ∧
    (h.tracker.stageAt .chamber = some .binding ∨ h.tracker.stageAt .chamber = some .bound ∨
      h.tracker.stageAt .chamber = some .ejecting) := by
  rw [Hub.feedHoldCondition, Bool.and_eq_true, and_congr_right_iff]
  intro _
  split
  · rename_i binding; simp [binding]
  · rename_i bound; simp [bound]
  · rename_i ejecting; simp [ejecting]
  · rename_i notBinding notBound notEjecting
    simp only [Bool.false_eq_true, false_iff, not_or]
    exact ⟨notBinding, notBound, notEjecting⟩

/-- FEED_HOLD is posted at the change from deasserted to asserted alone (R117). -/
theorem Hub.evalFeedHold_notices (h : Hub) : h.evalFeedHold.notices =
    if h.feedHoldCondition = true ∧ h.tracker.feedHold = false then (h.postTo .feedHold [.ch, .ct]).notices else h.notices := by
  unfold Hub.evalFeedHold
  simp only [Bool.and_eq_true, Bool.not_eq_true']
  split
  · exact Hub.postTo_notices_congr _ _ rfl
  · rfl

/-- Settles O36. -/
theorem prechamberEdgeSetsFeedHold : Obligations.PrechamberEdgeSetsFeedHold := by
  intro s level held
  let k : Hub := { s.hub with inputs := { s.hub.inputs with prechamberFull := level } }
  have asserted : k.feedHoldCondition = true ↔ held := k.feedHoldCondition_iff
  have tracker : k.evalFeedHold.tracker = { s.hub.tracker with feedHold := k.feedHoldCondition } := k.evalFeedHold_tracker
  have feedHold : k.evalFeedHold.tracker.feedHold = k.feedHoldCondition := congrArg Tracker.feedHold tracker
  have notices := k.evalFeedHold_notices
  have rises (hh : held) (low : s.hub.tracker.feedHold = false) : k.evalFeedHold.notices = (k.postTo .feedHold [.ch, .ct]).notices :=
    notices.trans (if_pos ⟨asserted.mpr hh, low⟩)
  have toRole {r : Role} (hh : held) (low : s.hub.tracker.feedHold = false) (named : r ∈ [Role.ch, .ct]) :
      posted k.evalFeedHold .feedHold r := by
    rw [posted, rises hh low]
    exact posted_of_mem k .feedHold named
  refine ⟨{ s with hub := k.evalFeedHold }, rfl, k.evalFeedHold_inputs, ?_, fun hh low => ⟨toRole hh low (by decide), toRole hh low (by decide)⟩,
    fun hh low => (rises hh low).trans (Hub.postTo_notices_congr _ _ rfl), fun quiet => ?_, ?_, k.evalFeedHold_claims⟩
  · rw [feedHold]; exact asserted
  · refine notices.trans (if_neg fun ⟨now, before⟩ => ?_)
    exact quiet.elim (fun no => no (asserted.mp now)) (fun high => nomatch high.symm.trans before)
  · rw [feedHold]; exact tracker

/-! ### BIND_START and BIND_RETRY (R103, R106, R127, R131) -/

/-- The part with a FORMING bale that begins to be bound, before FEED HOLD is evaluated again (R103, R127). -/
def Hub.bindingBegun (h : Hub) (b : Bale) : Hub :=
  (h.advance .chamber { b with net := some ⟨h.params.netTarget, 0⟩ } .binding).armNetWatch

theorem Hub.startBinding_eq (h : Hub) (b : Bale) : h.startBinding b = (h.bindingBegun b).evalFeedHold := rfl

section
variable (h : Hub) (b : Bale)

theorem Hub.bindingBegun_tracker : (h.bindingBegun b).tracker =
    { h.tracker with chamber := some { b with stage := .binding, net := some ⟨h.params.netTarget, 0⟩ } } := by
  simp only [Hub.bindingBegun, Hub.armNetWatch, Hub.advance_tracker]
  rfl

theorem Hub.bindingBegun_counter : (h.bindingBegun b).counter = { h.counter with
    watch := if h.inputs.netFeed then .feeding else .startWait
    startTimer := if h.inputs.netFeed then none else some (h.params.netStartLimit * 100), gapTimer := none } := by
  simp only [Hub.bindingBegun, Hub.armNetWatch, Hub.advance_inputs, Hub.advance_counter, Hub.advance_params]
  rfl

theorem Hub.bindingBegun_claims : (h.bindingBegun b).claims = h.claims := by
  simp only [Hub.bindingBegun, Hub.armNetWatch, Hub.advance_claims]

theorem Hub.bindingBegun_arbiter : (h.bindingBegun b).arbiter = h.arbiter := by
  simp only [Hub.bindingBegun, Hub.armNetWatch, Hub.advance_arbiter]

theorem Hub.bindingBegun_notices : (h.bindingBegun b).notices = (h.postTo .baleMoved [.ch, .wr, .ct]).notices :=
  Hub.postTo_notices_congr _ _ rfl

/-- With the chamber bale BINDING, FEED HOLD follows the pre-chamber full input (R117). -/
theorem Hub.bindingBegun_feedHoldCondition : (h.bindingBegun b).feedHoldCondition = h.inputs.prechamberFull := by
  have inputs : (h.bindingBegun b).inputs = h.inputs := by simp only [Hub.bindingBegun, Hub.armNetWatch, Hub.advance_inputs]
  rw [Hub.feedHoldCondition, Hub.bindingBegun_tracker, inputs]
  exact Bool.and_true _

theorem Hub.startBinding_tracker : (h.startBinding b).tracker = { h.tracker with
    chamber := some { b with stage := .binding, net := some ⟨h.params.netTarget, 0⟩ }
    feedHold := h.inputs.prechamberFull } := by
  rw [Hub.startBinding_eq, Hub.evalFeedHold_tracker, Hub.bindingBegun_feedHoldCondition, Hub.bindingBegun_tracker]

/-- The start of binding changes the counter's net watch and no other setting (R103, R127). -/
theorem Hub.startBinding_settings : { h.startBinding b with counter := h.counter }.settings = h.settings := by
  simp only [Hub.settings, Hub.startBinding_tracker]
  simp [Hub.startBinding_eq, Hub.bindingBegun, Hub.armNetWatch, Tracker.besideGrants]

/-- FEED_HOLD follows BALE_MOVED when the start of binding asserts FEED HOLD (R103, R117). -/
theorem Hub.startBinding_notices : (h.startBinding b).notices =
    if h.inputs.prechamberFull = true ∧ h.tracker.feedHold = false then
      ((h.postTo .baleMoved [.ch, .wr, .ct]).postTo .feedHold [.ch, .ct]).notices
    else (h.postTo .baleMoved [.ch, .wr, .ct]).notices := by
  rw [Hub.startBinding_eq, Hub.evalFeedHold_notices, Hub.bindingBegun_feedHoldCondition, Hub.bindingBegun_tracker, Hub.bindingBegun_notices,
    Hub.postTo_notices_congr _ _ (h.bindingBegun_notices b)]

theorem Hub.startBinding_enable (q : Role) : ((h.startBinding b).notices.get q).enable = (h.notices.get q).enable := by
  have moved := (Hub.postTo_get .baleMoved [.ch, .wr, .ct] h q).2
  rw [Hub.startBinding_notices]
  split
  · exact (Hub.postTo_get ..).2.trans moved
  · exact moved

end

theorem bindStartTaken (s : State) {b : Bale} (hb : s.hub.tracker.chamber = some b) (hg : b.stage = .forming) :
    exec (.bindStart .ch) s =
      replied s 0x22#8 (s.hub.startBinding b) .ok (u16 b.number ++ u8 s.hub.params.netTarget) := by
  refine item_of_answer (f := bindStartItem .ch) ?_
  simp only [bindStartItem, hb, if_pos hg]
  rfl

theorem bindStartIsTaken_holds : bindStartIsTaken := by
  intro s r
  refine ⟨fun other => ?_, fun empty => ?_, fun b hb => ⟨fun hg => ?_, fun hg => ?_⟩⟩
  · exact item_of_answer (f := bindStartItem r) (if_pos other)
  · refine item_of_answer (f := bindStartItem .ch) ?_
    simp only [bindStartItem, Hub.gateAnswer, Tracker.at, empty]
    rfl
  · refine item_of_answer (f := bindStartItem .ch) ?_
    simp only [bindStartItem, hb, if_neg hg, Hub.gateAnswer_some (p := .chamber) hb]
    rfl
  · let k := s.hub.startBinding b
    have notices := s.hub.startBinding_notices b
    have tracker := s.hub.startBinding_tracker b
    have moved (q : Role) : posted (s.hub.postTo .baleMoved [.ch, .wr, .ct]) .baleMoved q := posted_postAll s.hub .baleMoved q
    refine ⟨_, bindStartTaken s hb hg, congrArg Tracker.chamber tracker, ?_, congrArg Tracker.feedHold tracker, fun q => ?_,
      notices, fun full low => ?_, fun still q => ?_, rfl, (congrArg Tracker.table tracker :), ?_, ?_, ?_⟩
    · exact (Hub.evalFeedHold_counter _).trans (s.hub.bindingBegun_counter b)
    · change posted k .baleMoved q
      rw [posted, notices]
      split
      · exact Hub.keepsPosted_postTo _ _ _ q (moved q)
      · exact moved q
    · have rises := notices.trans (if_pos ⟨full, low⟩)
      have toRole {q : Role} (named : q ∈ [Role.ch, .ct]) : posted k .feedHold q := by
        rw [posted, rises]
        exact posted_of_mem _ .feedHold named
      exact ⟨toRole (by decide), toRole (by decide)⟩
    · have rests := notices.trans (if_neg fun ⟨full, low⟩ =>
        still.elim (fun no => nomatch full.symm.trans no) (fun high => nomatch high.symm.trans low))
      change posted k .feedHold q ↔ _
      rw [posted, rests]
      exact (posted_postTo s.hub .baleMoved .feedHold _ q).trans (or_iff_left fun other => absurd other.2 (by decide))
    · exact (Hub.evalFeedHold_claims _).trans (s.hub.bindingBegun_claims b)
    · exact (Hub.evalFeedHold_arbiter _).trans (s.hub.bindingBegun_arbiter b)
    · exact settingsKept_of_settings s _ (s.hub.startBinding_settings b) (s.hub.startBinding_enable b)

theorem bindRetryIsTaken_holds : bindRetryIsTaken := by
  intro s r
  refine ⟨fun other => ?_, fun stage => ?_, fun b n hb hg hn => ?_⟩
  · exact item_of_answer (f := bindRetryItem r) (if_pos other)
  · refine item_of_answer (f := bindRetryItem .ch) ?_
    unfold bindRetryItem
    rw [if_neg (not_not_intro rfl)]
    split
    · rename_i b hb
      refine if_neg fun hg => stage ?_
      rw [Tracker.stageAt, Tracker.at, hb, ← hg]
      rfl
    · rfl
  · refine item_of_answer (f := bindRetryItem .ch) ?_
    simp only [bindRetryItem, hb, if_pos hg, hn]
    rfl

/-- Settles O28. -/
theorem bindingBegins : Obligations.BindingBegins := ⟨bindStartIsTaken_holds, bindRetryIsTaken_holds⟩

end Sys2Proof.Machine

/-! ## The cradle-wait stopwatch, the cradle switch and BALE_DECLARE -/

namespace Sys2Proof.Machine

open Says

/-! ### The stopwatch started (R115, R116) -/

/-- The part with the stopwatch at the start of its count for the cradle bale `b`, before the count is compared (R115). -/
def Hub.stopwatchStarted (h : Hub) (b : Bale) : Hub := { h with tracker := { h.tracker with
  cradle := some { b with cradleWait := some (b.cradleWait.getD 0) }
  stopwatch := some ⟨h.params.tableLateLimit, 0⟩ } }

section
variable {h : Hub}

theorem Hub.startStopwatch_of_carried {b : Bale} (hb : h.tracker.cradle = some b) (hg : b.stage = .carried)
    (occupied : h.tracker.table ≠ none) (stopped : h.tracker.stopwatch = none) :
    h.startStopwatch = (h.stopwatchStarted b).lateCheck := by
  unfold Hub.startStopwatch
  split
  · rename_i c _ _ hc _
    cases hb.symm.trans hc
    exact if_pos hg
  · rename_i apart
    obtain ⟨x, hx⟩ := Option.ne_none_iff_exists'.mp occupied
    exact (apart b x stopped hb hx).elim

/-- A stopwatch that runs, an empty table and a cradle without a CARRIED bale leave all as it is (R115). -/
theorem Hub.startStopwatch_rests (rests : h.tracker.stopwatch ≠ none ∨ h.tracker.table = none ∨
    h.tracker.stageAt .cradle ≠ some .carried) : h.startStopwatch = h := by
  unfold Hub.startStopwatch
  split
  · rename_i b c stopped hb hc
    refine if_neg fun hg => ?_
    have carried : h.tracker.stageAt .cradle = some .carried := by rw [Tracker.stageAt, Tracker.at, hb, ← hg]; rfl
    rcases rests with runs | empty | other
    · exact runs stopped
    · exact nomatch hc.symm.trans empty
    · exact other carried
  · rfl

/-- A CARRIED bale at CRADLE while TABLE is occupied starts the stopwatch, and one at the limit already is late (R115, R116). -/
theorem Hub.startStopwatch_starts {b : Bale} (hb : h.tracker.cradle = some b) (hg : b.stage = .carried)
    (occupied : h.tracker.table ≠ none) (stopped : h.tracker.stopwatch = none) :
    h.startStopwatch.tracker.stopwatch = some ⟨h.params.tableLateLimit, 0⟩ ∧
      h.startStopwatch.tracker.cradle = some { b with
        cradleWait := some (b.cradleWait.getD 0)
        flags := { b.flags with
          tableLate := b.flags.tableLate || decide (h.params.tableLateLimit ≤ b.cradleWait.getD 0) } } ∧
      (h.params.tableLateLimit ≤ b.cradleWait.getD 0 → b.flags.tableLate = false →
        ∀ r, posted h.startStopwatch .tableLate r) := by
  rw [Hub.startStopwatch_of_carried hb hg occupied stopped]
  exact (h.stopwatchStarted b).lateCheck_running rfl rfl rfl

variable (h)

/-- The stopwatch rests, or starts for the bale at CRADLE (R115). -/
theorem Hub.startStopwatch_cases :
    h.startStopwatch = h ∨ ∃ b, h.tracker.cradle = some b ∧ h.startStopwatch = (h.stopwatchStarted b).lateCheck := by
  unfold Hub.startStopwatch
  split
  · rename_i b _ _ hb _
    split
    · exact .inr ⟨b, hb, rfl⟩
    · exact .inl rfl
  · exact .inl rfl

/-- The start of the stopwatch touches the stopwatch, the cradle's record and the notices, and nothing else (R115). -/
theorem Hub.startStopwatch_frame : { h.startStopwatch with
    notices := h.notices
    tracker := { h.startStopwatch.tracker with cradle := h.tracker.cradle, stopwatch := h.tracker.stopwatch } } = h := by
  rcases h.startStopwatch_cases with e | ⟨b, -, e⟩ <;> rw [e]
  have frame := (h.stopwatchStarted b).lateCheck_frame
  generalize (h.stopwatchStarted b).lateCheck = k at frame
  exact congrArg (fun k : Hub => { k with
    tracker := { k.tracker with cradle := h.tracker.cradle, stopwatch := h.tracker.stopwatch } }) frame

theorem Hub.keepsPosted_lateCheck : h.KeepsPosted h.lateCheck := by
  have still : h.KeepsPosted h := fun _ _ hp => hp
  unfold Hub.lateCheck
  split
  · split
    · refine Hub.KeepsPosted.trans ?_ (Hub.keepsPosted_postTo _ _)
      exact Hub.keepsPosted_of_notices rfl
    · exact still
  · exact still

theorem Hub.keepsPosted_startStopwatch : h.KeepsPosted h.startStopwatch := by
  rcases h.startStopwatch_cases with e | ⟨b, -, e⟩ <;> rw [e]
  · exact fun _ _ hp => hp
  · have started : h.KeepsPosted (h.stopwatchStarted b) := Hub.keepsPosted_of_notices rfl
    exact started.trans (Hub.keepsPosted_lateCheck _)

end

/-! ### The cradle switch (R108, R109) -/

/-- The part with an EJECTING chamber bale carried over to the empty cradle, before the stopwatch and FEED HOLD (R108). -/
def Hub.carriedOver (h : Hub) (b : Bale) : Hub :=
  { h with
    inputs := { h.inputs with cradleLoad := true }
    tracker := { h.tracker with chamber := none, cradle := some { b with stage := .carried } } }.postAll .baleMoved

section
variable (h : Hub) (b : Bale)

theorem Hub.carriedOver_tracker :
    (h.carriedOver b).tracker = { h.tracker with chamber := none, cradle := some { b with stage := .carried } } :=
  Hub.postTo_tracker ..

theorem Hub.cradleLoadActive_of_ejecting {b : Bale} (hb : h.tracker.chamber = some b) (hg : b.stage = .ejecting)
    (empty : h.tracker.cradle = none) : h.cradleLoadActive = (h.carriedOver b).startStopwatch.evalFeedHold := by
  simp only [Hub.cradleLoadActive, hb, empty, if_pos hg]
  rfl

/-- In any other case the edge is a sensor fault (R108). -/
theorem Hub.cradleLoadActive_of_stuck (stuck : ¬ (h.tracker.stageAt .chamber = some .ejecting ∧ h.tracker.cradle = none)) :
    h.cradleLoadActive = { h with inputs := { h.inputs with cradleLoad := true } }.postAll .sensorFault := by
  unfold Hub.cradleLoadActive
  dsimp only
  split
  · rename_i b hb empty
    refine if_neg fun hg => stuck ⟨?_, empty⟩
    rw [Tracker.stageAt, Tracker.at, hb, ← hg]
    rfl
  · rfl

end

theorem cradleLoadBecomesActive_holds : cradleLoadBecomesActive := by
  intro s
  refine ⟨{ s with hub := s.hub.cradleLoadActive }, rfl, ?_⟩
  by_cases moves : s.hub.tracker.stageAt .chamber = some .ejecting ∧ s.hub.tracker.cradle = none
  · obtain ⟨ejecting, empty⟩ := moves
    obtain ⟨b, hb, hg⟩ := Option.map_eq_some_iff.mp ejecting
    rw [if_pos ⟨ejecting, empty⟩]
    dsimp only
    rw [s.hub.cradleLoadActive_of_ejecting hb hg empty]
    let k := s.hub.carriedOver b
    have tracker : k.tracker = { s.hub.tracker with chamber := none, cradle := some { b with stage := .carried } } :=
      s.hub.carriedOver_tracker b
    have frame := k.startStopwatch_frame
    have chamber : k.startStopwatch.tracker.chamber = none := (congrArg (fun l => l.tracker.chamber) frame).trans (by rw [tracker])
    have deasserted : k.startStopwatch.feedHoldCondition = false := by
      rw [Hub.feedHoldCondition, Tracker.stageAt, Tracker.at, chamber]
      exact Bool.and_false _
    have evaluated := k.startStopwatch.evalFeedHold_tracker
    have stage : k.startStopwatch.evalFeedHold.tracker.stageAt .cradle = some .carried := by
      rw [evaluated]
      exact (Tracker.stageAt_of_outline (congrArg Prod.fst k.startStopwatch_outline) .cradle).trans (by rw [tracker]; rfl)
    refine ⟨?_, ⟨?_, stage, ?_, fun r => ?_⟩, ?_, ?_, ?_, ?_, ?_⟩
    · exact (Hub.evalFeedHold_inputs _).trans ((congrArg Hub.inputs frame).trans (Hub.postTo_inputs ..))
    · rw [evaluated]; exact chamber
    · rw [evaluated]; exact deasserted
    · exact posted_evalFeedHold _ _ r (k.keepsPosted_startStopwatch _ r (posted_postAll _ .baleMoved r))
    · rw [evaluated]; exact (congrArg (fun l => l.tracker.table) frame).trans (by rw [tracker])
    · rw [evaluated]; exact (congrArg (fun l => l.tracker.log) frame).trans (by rw [tracker])
    · exact (Hub.evalFeedHold_claims _).trans ((congrArg Hub.claims frame).trans (Hub.postTo_claims ..))
    · exact (Hub.evalFeedHold_arbiter _).trans ((congrArg Hub.arbiter frame).trans (Hub.postTo_arbiter ..))
    · exact (Hub.evalFeedHold_counter _).trans ((congrArg Hub.counter frame).trans (Hub.postTo_counter ..))
  · rw [if_neg moves]
    dsimp only
    rw [s.hub.cradleLoadActive_of_stuck moves]
    let k : Hub := { s.hub with inputs := { s.hub.inputs with cradleLoad := true } }
    have tracker : (k.postAll .sensorFault).tracker = s.hub.tracker := Hub.postTo_tracker ..
    exact ⟨Hub.postTo_inputs .., ⟨tracker, posted_postAll k .sensorFault⟩, congrArg Tracker.table tracker,
      congrArg Tracker.log tracker, Hub.postTo_claims .., Hub.postTo_arbiter .., Hub.postTo_counter ..⟩

theorem theChamberBaleIsCarried_holds : theChamberBaleIsCarried := by
  intro s b hb hg empty starts limit
  have outcome := s.hub.cradleLoadActive_of_ejecting hb hg empty
  let k := s.hub.carriedOver b
  have tracker : k.tracker = { s.hub.tracker with chamber := none, cradle := some { b with stage := .carried } } :=
    s.hub.carriedOver_tracker b
  have params : k.params = s.hub.params := Hub.postTo_params ..
  have evaluated := k.startStopwatch.evalFeedHold_tracker
  have frame := k.startStopwatch_frame
  have cradle : k.tracker.cradle = some { b with stage := .carried } := congrArg Tracker.cradle tracker
  have table : k.tracker.table = s.hub.tracker.table := by rw [tracker]
  have stopwatch : k.tracker.stopwatch = s.hub.tracker.stopwatch := by rw [tracker]
  refine ⟨{ s with hub := s.hub.cradleLoadActive }, rfl, ?_⟩
  dsimp only
  rw [outcome]
  refine ⟨fun rests => ?_, fun ⟨occupied, stopped⟩ => ?_, ?_, ?_⟩
  · have still : k.startStopwatch = k := by
      refine Hub.startStopwatch_rests ?_
      rw [table, stopwatch]
      by_cases empty : s.hub.tracker.table = none
      · exact .inr (.inl empty)
      · exact .inl fun stopped => rests ⟨empty, stopped⟩
    change k.startStopwatch.evalFeedHold.tracker.cradle = _ ∧ k.startStopwatch.evalFeedHold.tracker.stopwatch = _
    rw [evaluated, still]
    exact ⟨cradle, stopwatch⟩
  · obtain ⟨runs, carried, late⟩ := Hub.startStopwatch_starts cradle rfl (table ▸ occupied) (stopwatch.trans stopped)
    rw [params] at runs carried late
    change k.startStopwatch.evalFeedHold.tracker.stopwatch = _ ∧ k.startStopwatch.evalFeedHold.tracker.cradle = _ ∧ _
    rw [evaluated]
    exact ⟨runs, carried, fun atLimit unmarked r => posted_evalFeedHold _ _ r (late atLimit unmarked r)⟩
  · exact (congrArg Tracker.transit evaluated).trans ((congrArg (fun l => l.tracker.transit) frame).trans (by rw [tracker]))
  · exact (congrArg Tracker.nextNumber evaluated).trans ((congrArg (fun l => l.tracker.nextNumber) frame).trans (by rw [tracker]))

theorem cradleLoadBecomesInactive_holds : cradleLoadBecomesInactive := by
  intro s
  refine congrArg (took s) ?_
  unfold Hub.cradleLoadInactive
  dsimp only
  split
  · rename_i carried stopped
    rw [if_pos ⟨carried, stopped⟩]
    rfl
  · rename_i other
    rw [if_neg fun ⟨carried, stopped⟩ => other carried stopped]

/-- Settles O33. -/
theorem cradleSwitchEdges : Obligations.CradleSwitchEdges :=
  ⟨cradleLoadBecomesActive_holds, theChamberBaleIsCarried_holds, cradleLoadBecomesInactive_holds⟩

end Sys2Proof.Machine

/-! ## BALE_DECLARE (R119) -/

namespace Sys2Proof.Machine

open Says

/-! ### The codes -/

theorem argPlace_placeCode (p : Place) : argPlace (BitVec.ofNat 8 (placeCode (some p))) = some p := by
  cases p <;> rfl

theorem argStage_code {g : Stage} (hg : g ≠ .dropped) : argStage (BitVec.ofNat 8 g.code) = some g := by
  cases g
  case dropped => exact absurd rfl hg
  all_goals rfl

theorem argPlace_eq_none {p : Byte} (above : 2 < p.toNat) : argPlace p = none := by
  unfold argPlace
  split
  case h_4 => rfl
  all_goals omega

theorem argStage_eq_none {g : Byte} (above : 8 < g.toNat) : argStage g = none := by
  unfold argStage
  split
  case h_10 => rfl
  all_goals omega

/-- The stages that may be declared at a place are those it admits but BINDING and WRAPPING (R119). -/
theorem declarable_iff (p : Place) (g : Stage) :
    declarable p g = true ↔ p.admits g = true ∧ g ≠ .binding ∧ g ≠ .wrapping := by
  cases p <;> cases g <;> decide

/-! ### Refused -/

theorem baleDeclareItem_of_codes {h : Hub} {p g : Byte} {x : Place} {y : Stage} (setup : h.control.mode = .setup)
    (hx : argPlace p = some x) (hy : argStage g = some y) : baleDeclareItem .ct p g h =
      if !declarable x y then (h, .bare .badValue)
      else if (h.tracker.at x).isSome then h.gateAnswer x
      else (h.declareBale x y, ⟨.ok, u16 h.tracker.assignedNumber⟩) := by
  simp only [baleDeclareItem, setup, hx, hy]
  rfl

theorem baleDeclareItem_badCode {h : Hub} {p g : Byte} (setup : h.control.mode = .setup)
    (bad : 2 < p.toNat ∨ 8 < g.toNat) : baleDeclareItem .ct p g h = (h, .bare .badValue) := by
  rw [baleDeclareItem, if_neg (not_not_intro rfl), if_neg (not_not_intro setup)]
  rcases bad with place | stage
  · rw [argPlace_eq_none place]
  · rw [argStage_eq_none stage]
    cases argPlace p <;> rfl

theorem baleDeclareIsRefused_holds : baleDeclareIsRefused := by
  intro s r
  refine ⟨fun p g refused => ?_, fun ct setup p g inQueue => ?_⟩
  · refine item_of_answer (f := baleDeclareItem r p g) ?_
    by_cases other : r ≠ .ct
    · rw [if_pos other]
      exact if_pos other
    · obtain rfl : r = .ct := not_not.mp other
      rw [if_neg other]
      by_cases away : s.hub.control.mode ≠ .setup
      · rw [if_pos away]
        exact (if_neg other).trans (if_pos away)
      · rw [if_neg away]
        exact baleDeclareItem_badCode (not_not.mp away) ((refused.resolve_left other).resolve_left away)
  · subst ct
    have codes := baleDeclareItem_of_codes setup (argPlace_placeCode p) (argStage_code inQueue)
    refine ⟨fun bad => ?_, fun admitted notBinding notWrapping b hb => ?_⟩
    · have not : declarable p g = false := by
        refine Bool.eq_false_iff.mpr fun may => ?_
        obtain ⟨admitted, notBinding, notWrapping⟩ := (declarable_iff p g).mp may
        rcases bad with outside | binding | wrapping
        · exact nomatch admitted.symm.trans outside
        · exact notBinding binding
        · exact notWrapping wrapping
      refine item_of_answer (f := baleDeclareItem .ct _ _) (codes.trans ?_)
      rw [not]
      rfl
    · have may : declarable p g = true := (declarable_iff p g).mpr ⟨admitted, notBinding, notWrapping⟩
      refine item_of_answer (f := baleDeclareItem .ct _ _) (codes.trans ?_)
      rw [may, hb, Hub.gateAnswer_some hb]
      rfl

/-! ### Taken -/

theorem baleDeclareTaken (s : State) {p : Place} {g : Stage} (setup : s.hub.control.mode = .setup) (admitted : p.admits g = true)
    (notBinding : g ≠ .binding) (notWrapping : g ≠ .wrapping) (empty : s.hub.tracker.at p = none) :
    exec (.baleDeclare .ct (BitVec.ofNat 8 (placeCode (some p))) (BitVec.ofNat 8 g.code)) s =
      replied s 0x27#8 (s.hub.declareBale p g) .ok (u16 s.hub.tracker.assignedNumber) := by
  have inQueue : g ≠ .dropped := by rintro rfl; cases p <;> exact nomatch admitted
  have may : declarable p g = true := (declarable_iff p g).mpr ⟨admitted, notBinding, notWrapping⟩
  refine item_of_answer (f := baleDeclareItem .ct _ _) ?_
  rw [baleDeclareItem_of_codes setup (argPlace_placeCode p) (argStage_code inQueue), may, empty]
  rfl

section
variable (h : Hub) (p : Place) (g : Stage)

/-- What a declaration does after the record is created (R115, R117, R119). -/
theorem Hub.declareBale_eq : h.declareBale p g =
    if p = .chamber then (h.createBale p g true).evalFeedHold else (h.createBale p g true).startStopwatch := by
  cases p <;> rfl

theorem Hub.createBale_at (q : Place) (recovered : Bool) :
    (h.createBale p g recovered).tracker.at q = if q = p then some (h.newBale g recovered) else h.tracker.at q := by
  rw [Hub.createBale_tracker, ← Tracker.at_put]
  cases q <;> rfl

/-- FEED HOLD evaluated touches FEED HOLD and the notices, and nothing else (R117). -/
theorem Hub.evalFeedHold_frame : { h.evalFeedHold with
    notices := h.notices, tracker := { h.evalFeedHold.tracker with feedHold := h.tracker.feedHold } } = h := by
  unfold Hub.evalFeedHold
  dsimp only
  split
  · let k : Hub := { h with tracker := { h.tracker with feedHold := h.feedHoldCondition } }
    exact congrArg (fun l : Hub => { l with tracker := { l.tracker with feedHold := h.tracker.feedHold } })
      (k.postTo_frame .feedHold [.ch, .ct])
  · rfl

/-- A declaration creates the record, and beyond it touches the cradle's record, the stopwatch, FEED HOLD and the notices. -/
theorem Hub.declareBale_frame : { h.declareBale p g with
    notices := (h.createBale p g true).notices
    tracker := { (h.declareBale p g).tracker with
      cradle := (h.createBale p g true).tracker.cradle
      stopwatch := (h.createBale p g true).tracker.stopwatch
      feedHold := (h.createBale p g true).tracker.feedHold } } = h.createBale p g true := by
  rw [Hub.declareBale_eq]
  generalize h.createBale p g true = k
  split
  · have frame := k.evalFeedHold_frame
    exact congrArg (fun l : Hub => { l with
      tracker := { l.tracker with cradle := k.tracker.cradle, stopwatch := k.tracker.stopwatch } }) frame
  · have frame := k.startStopwatch_frame
    exact congrArg (fun l : Hub => { l with tracker := { l.tracker with feedHold := k.tracker.feedHold } }) frame

theorem Hub.keepsPosted_declareBale : (h.createBale p g true).KeepsPosted (h.declareBale p g) := by
  rw [Hub.declareBale_eq]
  split
  · exact fun n r hp => posted_evalFeedHold _ n r hp
  · exact Hub.keepsPosted_startStopwatch _

theorem Hub.declareBale_stageAt (q : Place) : (h.declareBale p g).tracker.stageAt q = (h.createBale p g true).tracker.stageAt q := by
  rw [Hub.declareBale_eq]
  split
  · rw [Hub.evalFeedHold_tracker]
    cases q <;> rfl
  · exact Tracker.stageAt_of_outline (congrArg Prod.fst (Hub.startStopwatch_outline _)) q

/-- A new record at CRADLE waits below a limit above 0, and is not late (R116). -/
theorem Hub.createBale_startStopwatch_cradle (positive : 0 < h.params.tableLateLimit) : ∃ wait,
    (h.createBale .cradle g true).startStopwatch.tracker.cradle = some { h.newBale g true with cradleWait := wait } := by
  have new : (h.createBale .cradle g true).tracker.cradle = some (h.newBale g true) := h.createBale_at .cradle g .cradle true
  have params : (h.createBale .cradle g true).params = h.params := h.createBale_params .cradle g true
  generalize h.createBale .cradle g true = k at new params
  rcases k.startStopwatch_cases with e | ⟨b, hb, e⟩ <;> rw [e]
  · exact ⟨none, new⟩
  · obtain rfl : h.newBale g true = b := Option.some.inj (new.symm.trans hb)
    refine ⟨some 0, ((k.stopwatchStarted _).lateCheck_running rfl rfl rfl).2.1.trans ?_⟩
    have early : decide (k.params.tableLateLimit ≤ 0) = false :=
      decide_eq_false (Nat.not_le.mpr (params ▸ positive))
    exact congrArg (fun late => some { h.newBale g true with
      cradleWait := some 0, flags := { BaleFlags.empty with recovered := true, tableLate := late } }) early

/-- The record declared stands at its place, its wait perhaps made present (R115, R119). -/
theorem Hub.declareBale_at (positive : 0 < h.params.tableLateLimit) :
    ∃ wait, (h.declareBale p g).tracker.at p = some { h.newBale g true with cradleWait := wait } := by
  have new : (h.createBale p g true).tracker.at p = some (h.newBale g true) := (h.createBale_at p g p true).trans (if_pos rfl)
  have frame := h.declareBale_frame p g
  cases p with
  | chamber => exact ⟨none, (congrArg (fun k => k.tracker.chamber) frame).trans new⟩
  | cradle => exact h.createBale_startStopwatch_cradle g positive
  | table => exact ⟨none, (congrArg (fun k => k.tracker.table) frame).trans new⟩

/-- A declaration that starts no stopwatch changes the tracker beside the new record in FEED HOLD alone (R115, R117). -/
theorem Hub.declareBale_rests (rests : p = .chamber ∨ h.tracker.stopwatch ≠ none ∨ (p = .cradle ∧ h.tracker.table = none) ∨
    (p = .table ∧ h.tracker.stageAt .cradle ≠ some .carried)) :
    ∃ f, (h.declareBale p g).tracker = { (h.createBale p g true).tracker with feedHold := f } := by
  rw [Hub.declareBale_eq]
  split
  · exact ⟨_, Hub.evalFeedHold_tracker _⟩
  · rename_i away
    rw [Hub.startStopwatch_rests]
    · exact ⟨_, rfl⟩
    · rw [Tracker.stageAt, h.createBale_at p g .cradle true, Hub.createBale_tracker]
      rcases rests with chamber | runs | ⟨rfl, empty⟩ | ⟨rfl, other⟩
      · exact absurd chamber away
      · exact .inl (by simpa using runs)
      · exact .inr (.inl empty)
      · exact .inr (.inr other)

end

theorem baleDeclareIsTaken_holds : baleDeclareIsTaken := by
  intro s p g setup positive admitted notBinding notWrapping empty
  obtain ⟨wait, hb⟩ := s.hub.declareBale_at p g positive
  have frame := s.hub.declareBale_frame p g
  have tracker := s.hub.createBale_tracker p g true
  refine ⟨_, _, baleDeclareTaken s setup admitted notBinding notWrapping empty, hb, firstNumber_assigned s.hub, rfl, rfl, rfl, rfl,
    rfl, rfl, rfl, rfl, ?_, fun q => ?_, rfl, fun q other => ?_, ?_, ?_, ?_⟩
  · exact (congrArg (fun k => k.tracker.nextNumber) frame).trans (congrArg Tracker.nextNumber tracker)
  · exact s.hub.keepsPosted_declareBale p g _ q (posted_postAll _ .baleMoved q)
  · refine (s.hub.declareBale_stageAt p g q).trans (congrArg (Option.map _) ?_)
    rw [Hub.createBale_at, if_neg other]
  · exact (congrArg (fun k => k.tracker.log) frame).trans ((congrArg Tracker.log tracker).trans (Tracker.put_log ..))
  · exact (congrArg Hub.claims frame).trans (s.hub.createBale_claims p g true)
  · exact (congrArg Hub.params frame).trans (s.hub.createBale_params p g true)

theorem Place.cradle_admits {g : Stage} (admitted : Place.cradle.admits g = true) : g = .carried := by
  cases g
  case carried => rfl
  all_goals exact nomatch admitted

theorem declarationsStartTheStopwatch_holds : declarationsStartTheStopwatch := by
  intro s p g setup admitted notBinding notWrapping empty
  refine ⟨_, baleDeclareTaken s setup admitted notBinding notWrapping empty, ?_⟩
  intro limit
  have created (q : Place) := s.hub.createBale_at p g q true
  have params := s.hub.createBale_params p g true
  have tracker := s.hub.createBale_tracker p g true
  refine ⟨?_, ?_, fun rests => ?_⟩
  · rintro rfl occupied stopped
    obtain ⟨runs, carried, -⟩ := Hub.startStopwatch_starts (created .cradle) (Place.cradle_admits admitted)
      (by rw [tracker]; exact occupied) (by rw [tracker]; exact stopped)
    rw [params] at runs
    exact ⟨runs, _, carried, rfl⟩
  · rintro b rfl hb hg stopped
    obtain ⟨runs, carried, late⟩ := Hub.startStopwatch_starts ((created .cradle).trans hb) hg
      (by rw [tracker]; exact Option.some_ne_none _) (by rw [tracker]; exact stopped)
    rw [params] at runs carried late
    exact ⟨runs, carried, late⟩
  · obtain ⟨f, same⟩ := s.hub.declareBale_rests p g rests
    have still (q : Place) : (s.hub.declareBale p g).tracker.at q = (s.hub.createBale p g true).tracker.at q := by
      rw [same]; cases q <;> rfl
    refine ⟨(congrArg Tracker.stopwatch same).trans (by simp), fun q other => ?_, fun b hb => ?_⟩
    · exact ((still q).trans (created q)).trans (if_neg other)
    · have new : some (s.hub.newBale g true) = some b := ((still p).trans ((created p).trans (if_pos rfl))).symm.trans hb
      rw [← Option.some.inj new]
      rfl

/-- Settles O31. -/
theorem baleDeclareIsTaken : Obligations.BaleDeclareIsTaken :=
  ⟨baleDeclareIsRefused_holds, baleDeclareIsTaken_holds, declarationsStartTheStopwatch_holds⟩

end Sys2Proof.Machine

/-! ## MODE_SET and the map check (R40, R158) -/

namespace Sys2Proof.Machine

open Says

/-! ### The map check (R40) -/

theorem ascending_iff (l : List Nat) : ascending l = true ↔ l.Pairwise (· < ·) := by
  rw [← List.isChain_iff_pairwise]
  match l with
  | [] | [_] => simp [ascending]
  | x :: y :: rest => rw [ascending, Bool.and_eq_true, decide_eq_true_iff, List.isChain_cons_cons, ascending_iff (y :: rest),
      List.isChain_iff_pairwise]

/-- The boundaries of an axis pass the map check (R40). -/
def Says.lawful (h : Hub) (a : Axis) : Prop :=
  (h.map.get a).bounds.toList.Pairwise (· < ·) ∧
    ∀ v, v ∈ (h.map.get a).bounds.toList → 1 ≤ v ∧ v ≤ (if a = .ring then 719 else 4094)

theorem Says.mapAxisOk_iff (h : Hub) (a : Axis) : mapAxisOk a (h.map.get a).bounds = true ↔ lawful h a := by
  rw [mapAxisOk, Bool.and_eq_true, ascending_iff, List.all_eq_true, lawful]
  simp only [decide_eq_true_eq]

theorem Hub.mapFailure_of_lawful {h : Hub} (ok : ∀ a, lawful h a) : h.mapFailure = none :=
  List.find?_eq_none.mpr fun a _ => by simp [(mapAxisOk_iff h a).mpr (ok a)]

/-- The axis reported is the lowest-numbered one that fails (R40). -/
theorem Hub.mapFailure_of_lowest {h : Hub} {a : Axis} (fails : ¬ lawful h a)
    (lower : ∀ b : Axis, b.number < a.number → lawful h b) : h.mapFailure = some a := by
  refine find?_axisList ?_ fun b hb => ?_
  · rw [Bool.not_eq_true', Bool.eq_false_iff]
    exact fun ok => fails ((mapAxisOk_iff h a).mp ok)
  · rw [(mapAxisOk_iff h b).mpr (lower b hb)]
    rfl

/-! ### MODE_SET (R158) -/

theorem argMode_eq_none {m : Byte} (above : 1 < m.toNat) : argMode m = none := by
  unfold argMode
  split
  case h_3 => rfl
  all_goals omega

theorem argMode_of_le {m : Byte} (within : m.toNat ≤ 1) : ∃ x, argMode m = some x := by
  unfold argMode
  split
  · exact ⟨_, rfl⟩
  · exact ⟨_, rfl⟩
  · rename_i notZero notOne
    exact absurd within (Nat.not_le.mpr (Nat.one_lt_iff_ne_zero_and_ne_one.mpr ⟨notZero, notOne⟩))

section
variable {h : Hub} {m : Byte} {x : Mode}

theorem modeSetItem_wrongMode (hm : argMode m = some x) (refused : h.control.restartPending = true ∨ h.control.mode = .stopped) :
    modeSetItem .ct m h = h.modeAnswer .wrongMode [] := by
  rw [modeSetItem, if_neg (not_not_intro rfl), hm]
  dsimp only
  split
  · rfl
  · rename_i away
    rw [refused.resolve_left away]

/-- MODE_SET to the mode the part is in changes nothing (R158). -/
theorem modeSetItem_same (hm : argMode m = some x) (idle : h.control.restartPending = false) (mode : h.control.mode = x)
    (away : x ≠ .stopped) : modeSetItem .ct m h = h.modeAnswer .ok [] := by
  rw [modeSetItem, if_neg (not_not_intro rfl), hm]
  dsimp only
  rw [if_neg (by simp [idle]), mode]
  cases x
  case stopped => exact absurd rfl away
  all_goals rfl

theorem modeSetItem_run_of_setup (idle : h.control.restartPending = false) (mode : h.control.mode = .setup) :
    modeSetItem .ct 1#8 h = h.enterRun := by
  have run : argMode 1#8 = some .run := rfl
  rw [modeSetItem, if_neg (not_not_intro rfl), run]
  dsimp only
  rw [if_neg (by simp [idle]), mode]

end

/-- Settles O44. -/
theorem modeSetIsTaken : Obligations.ModeSetIsTaken := by
  intro s r m lawful
  refine ⟨fun other => ?_, fun above => ?_, fun within refused => ?_, fun idle => ⟨fun mode => ?_, fun mode => ?_, fun mode ok => ?_,
    fun mode a fails lower => ?_⟩⟩
  · exact item_of_answer (f := modeSetItem r m) (if_pos other)
  · refine item_of_answer (f := modeSetItem .ct m) ?_
    rw [modeSetItem, if_neg (not_not_intro rfl), argMode_eq_none above]
    rfl
  · obtain ⟨x, hx⟩ := argMode_of_le within
    exact item_of_answer (f := modeSetItem .ct m) ((modeSetItem_wrongMode hx refused).trans (by rw [Hub.modeAnswer, List.append_nil]))
  · refine item_of_answer (f := modeSetItem .ct 0#8) ((modeSetItem_same rfl idle mode nofun).trans ?_)
    rw [Hub.modeAnswer, mode]
    rfl
  · refine item_of_answer (f := modeSetItem .ct 1#8) ((modeSetItem_same rfl idle mode nofun).trans ?_)
    rw [Hub.modeAnswer, mode]
    rfl
  · refine item_of_answer (f := modeSetItem .ct 1#8) ((modeSetItem_run_of_setup idle mode).trans ?_)
    rw [Hub.enterRun, Hub.mapFailure_of_lawful ok]
    rfl
  · refine item_of_answer (f := modeSetItem .ct 1#8) ((modeSetItem_run_of_setup idle mode).trans ?_)
    rw [Hub.enterRun, Hub.mapFailure_of_lowest fails lower]
    dsimp only
    rw [Hub.modeAnswer, mode]
    rfl

end Sys2Proof.Machine
